-- ==== Sys2Proof/Word.lean ====
section
/-! DEFINITION. The word types of AESCORE (00_scope.md rules R10, R11): bytes, 32-bit words, and the byte
sequences of fixed length that the algorithms are written over. -/

namespace Sys2Proof

/-- R10: "a byte is an unsigned 8-bit value". -/
abbrev Byte := BitVec 8

/-- R10: "a word is an unsigned 32-bit value"; the width of every register access (R8, BUS_WIDTH). -/
abbrev Word := BitVec 32

/-- R16: a block, the "fixed 16-byte unit processed by one invocation of the cipher's round network". -/
abbrev Block := Vector Byte 16

/-- R11, R100: a word of the key schedule is a 4-byte sequence, byte 0 first; it is not a bus word. -/
abbrev KeyWord := Vector Byte 4

/-- R110: the 4x4 matrix s[r][c] of bytes, row r first, column c second. The spec calls it the State; the name
here keeps it apart from the machine's state. It exists only inside one completion step (R46). -/
abbrev Matrix := Vector (Vector Byte 4) 4

/-- The byte-wise xor of two sequences of one length (R101 for key-schedule words, R134 and R141 for blocks). -/
def xorBytes {n : Nat} (a b : Vector Byte n) : Vector Byte n :=
  Vector.ofFn fun i => a[i] ^^^ b[i]

end Sys2Proof
end

