-- ==== Sys2Proof/Syntax.lean ====
section
/-! DEFINITION. The commands of AESCORE: one constructor per row of spec/opcode_table.json (30_encoding.md rule R75).
Operands that do not stand in the command word come from registers (R81) and are no part of the syntax. -/

namespace Sys2Proof

/-- One command of the opcode map (R75). `ksz` is the key size code KSZ, two bits of the word (R73). `len` is the
unsigned byte count LEN, 0..31 (R72); that it fits its five bits is `Instr.WellFormed`. -/
inductive Instr where
  /-- KEY_EXPAND, `KEYEXP`: OPC 0x01 (R104). -/
  | keyExpand (ksz : BitVec 2)
  /-- ENC_BLOCK, `ENCB`: OPC 0x02 (R120). -/
  | encBlock (len : Nat)
  /-- DEC_BLOCK, `DECB`: OPC 0x03 (R121). -/
  | decBlock (len : Nat)
  /-- GF_MUL, `GFMUL`: OPC 0x04 (R92). -/
  | gfMul
  /-- CBC_ENC_INIT, `CBCE.INIT`: OPC 0x05 (R131). -/
  | cbcEncInit (ksz : BitVec 2)
  /-- CBC_ENC_CHUNK, `CBCE.CHUNK`: OPC 0x06 (R134). -/
  | cbcEncChunk (len : Nat)
  /-- CBC_DEC_INIT, `CBCD.INIT`: OPC 0x07 (R140). -/
  | cbcDecInit (ksz : BitVec 2)
  /-- CBC_DEC_BLOCK, `CBCD.BLK`: OPC 0x08 (R141). -/
  | cbcDecBlock (len : Nat)
  /-- ZEROIZE: OPC 0x09 (R161). -/
  | zeroize
  deriving DecidableEq, Repr

end Sys2Proof
end

