-- ==== Sys2Proof/WellFormed.lean ====
section
/-! DEFINITION. Which commands have a word: the byte count LEN fits its field (30_encoding.md rule R72). A key size
code is two bits by its type (R73), so it needs no check. -/

namespace Sys2Proof

/-- R72: LEN is bits [12:8] of the word, so a byte count is 0..31. A count the command does not accept (17..31 for a
chunk) is well formed: the command raises InvalidBlockSize at completion (R79). -/
def lenFits (len : Nat) : Bool := decide (len < 32)

/-- The check a command must pass to have a word. -/
def Instr.wellFormed : Instr → Bool
  | .keyExpand _ => true
  | .encBlock len => lenFits len
  | .decBlock len => lenFits len
  | .gfMul => true
  | .cbcEncInit _ => true
  | .cbcEncChunk len => lenFits len
  | .cbcDecInit _ => true
  | .cbcDecBlock len => lenFits len
  | .zeroize => true

/-- The check as a proposition. -/
abbrev Instr.WellFormed (i : Instr) : Prop := i.wellFormed = true

end Sys2Proof
end

