-- ==== Sys2Proof/Decode.lean ====
section
/-! DEFINITION. The command word (30_encoding.md): its fields, the match and mask table of rule R76, the decoder of
rule R77, total on every 32-bit word, and the encoder from the same table. -/

namespace Sys2Proof

/-- R72: LEN, bits [12:8], zero-extended. -/
def lenField (v : Word) : Nat := (v.extractLsb' 8 5).toNat

/-- R73: KSZ, bits [17:16]. -/
def kszField (v : Word) : BitVec 2 := v.extractLsb' 16 2

/-- The nine commands of the opcode map (R75), before their fields are read. -/
inductive Opcode where
  | keyExpand | encBlock | decBlock | gfMul | cbcEncInit | cbcEncChunk | cbcDecInit | cbcDecBlock | zeroize
  deriving DecidableEq, Repr

/-- The command of an opcode, its fields read from the word as R77 returns them. -/
def Opcode.toInstr (op : Opcode) (v : Word) : Instr :=
  match op with
  | .keyExpand => .keyExpand (kszField v)
  | .encBlock => .encBlock (lenField v)
  | .decBlock => .decBlock (lenField v)
  | .gfMul => .gfMul
  | .cbcEncInit => .cbcEncInit (kszField v)
  | .cbcEncChunk => .cbcEncChunk (lenField v)
  | .cbcDecInit => .cbcDecInit (kszField v)
  | .cbcDecBlock => .cbcDecBlock (lenField v)
  | .zeroize => .zeroize

/-- One row of the table of R76: a word v selects the row iff `v &&& mask = pattern`. -/
structure OpRow where
  opcode  : Opcode
  pattern : Word
  mask    : Word
  deriving DecidableEq, Repr

/-- R76, row by row. -/
def opRows : List OpRow :=
  [ ⟨.keyExpand,   0x00000001#32, 0xFFFCFFFF#32⟩,
    ⟨.encBlock,    0x00000002#32, 0xFFFFE0FF#32⟩,
    ⟨.decBlock,    0x00000003#32, 0xFFFFE0FF#32⟩,
    ⟨.gfMul,       0x00000004#32, 0xFFFFFFFF#32⟩,
    ⟨.cbcEncInit,  0x00000005#32, 0xFFFCFFFF#32⟩,
    ⟨.cbcEncChunk, 0x00000006#32, 0xFFFFE0FF#32⟩,
    ⟨.cbcDecInit,  0x00000007#32, 0xFFFCFFFF#32⟩,
    ⟨.cbcDecBlock, 0x00000008#32, 0xFFFFE0FF#32⟩,
    ⟨.zeroize,     0x00000009#32, 0xFFFFFFFF#32⟩ ]

/-- R76: the word `v` selects the row. -/
def OpRow.selects (r : OpRow) (v : Word) : Bool := v &&& r.mask == r.pattern

/-- R77: the first row the word selects, or ILLEGAL (`none`), whose meaning is the error completion IllegalCommand. -/
def decode (v : Word) : Option Instr :=
  (opRows.find? fun r => r.selects v).map fun r => r.opcode.toInstr v

/-- R70, R75: the word of a well-formed command: OPC in bits [7:0], LEN in bits [12:8], KSZ in bits [17:16], every
reserved bit and every field the command does not use 0. -/
def commandWord (opc : BitVec 8) (len : Nat) (ksz : BitVec 2) : Word :=
  opc.zeroExtend 32 ||| (BitVec.ofNat 32 len <<< 8) ||| (ksz.zeroExtend 32 <<< 16)

/-- The encoder (R75). -/
def encode : Instr → Word
  | .keyExpand ksz => commandWord 0x01#8 0 ksz
  | .encBlock len => commandWord 0x02#8 len 0#2
  | .decBlock len => commandWord 0x03#8 len 0#2
  | .gfMul => commandWord 0x04#8 0 0#2
  | .cbcEncInit ksz => commandWord 0x05#8 0 ksz
  | .cbcEncChunk len => commandWord 0x06#8 len 0#2
  | .cbcDecInit ksz => commandWord 0x07#8 0 ksz
  | .cbcDecBlock len => commandWord 0x08#8 len 0#2
  | .zeroize => commandWord 0x09#8 0 0#2

/-- The 32-bit command word whose `nbits` low bits are those of `w` and whose other bits are 0. Every command is
exactly one 32-bit word (R80), written to CMD whole, so a table row's bit numbers are the word's own. -/
def tableWord (nbits w : Nat) : Word := BitVec.ofNat 32 (w % 2 ^ nbits)

/-- The decoder on a row of spec/opcode_table.json (see `tableWord`); a value of more than 32 bits is no command. -/
def decodeTableWord (nbits w : Nat) : Option Instr :=
  if w % 2 ^ nbits < 2 ^ 32 then decode (tableWord nbits w) else none

end Sys2Proof
end

