-- ==== Sys2Proof/Config.lean ====
section
/-! DEFINITION. What is fixed for the block (00_scope.md rules R7, R8; 10_state.md rule R23) and the values the spec
leaves open: the constants without a body are free, so nothing can be proved of their value. -/

namespace Sys2Proof.Config

/-- R23: a read of ID returns 0x41455301 at all times. -/
def idValue : Word := 0x41455301#32

/-- R8, R50: the window is 0x200 bytes, offsets 0x000 to 0x1FF. -/
def windowBytes : Nat := 0x200

/-- R9, D48 (OPEN parameter BASE): the address at which the platform places offset 0x000. Free: no rule depends on it. -/
opaque base : Nat

/-- R14, R196 (93_implementation_defined.md U3): the draw number `n`, a fresh free value for each host read that the
spec leaves unspecified. It has no body: "a draw is not constrained to be the old or the new value" (assumption 3). -/
opaque draw : Nat → Word

end Sys2Proof.Config
end

