-- ==== Sys2Proof/Machine/State.lean ====
section
/-! DEFINITION. The state of AESCORE: every element of 10_state.md rule R21, and three fields of the model's own (the
events the outside world still has to make, the word the last bus read returned, the counter of draws). Plain data. -/

namespace Sys2Proof.Machine

/-- R29: which CBC stream is open. The value 3 of the two-bit field "is never written", so it is no constructor. -/
inductive Stream where
  | idle | enc | dec
  deriving DecidableEq, Repr

/-- R171: the error codes 0..6. Codes 7..15 are "never written", so they are no constructors. -/
inductive ErrCode where
  | none | unsupportedKeySize | invalidBlockSize | invalidCiphertextSize | noKey | sequence | illegalCommand
  deriving DecidableEq, Repr

/-- R22: the registers of the window. -/
inductive Reg where
  | id | cmd | status | outLen | gfOp | gfRes | streamLen | blkRem
  | key (k : Fin 8) | iv (k : Fin 4) | cv (k : Fin 4) | din (k : Fin 4) | dout (k : Fin 4) | w (k : Fin 60)
  deriving DecidableEq, Repr

/-- R51: the width of a host access; only 32-bit accesses are within the spec. -/
inductive AccessWidth where
  | byte | half | word
  deriving DecidableEq, Repr

/-- One step of one agent (R20, R59) or of the platform (R191). -/
inductive Event where
  /-- The host reads at an offset of the window (R13). -/
  | busRead (width : AccessWidth) (off : Nat)
  /-- The host writes `v` at an offset of the window (R13). -/
  | busWrite (width : AccessWidth) (off : Nat) (v : Word)
  /-- The scheduler gives the engine its turn: the completion step, when one is enabled (R26, R200). -/
  | engine
  /-- The platform asserts reset (R190, R191). -/
  | reset
  deriving DecidableEq, Repr

/-- The state. The fields down to `w` are R21's table in its order. The last three are the model's own. -/
structure State where
  /-- LASTCMD, 32 bits: the last word issued (R24). -/
  lastCmd : Word
  /-- PENDING, 32 bits, not visible: the command word from issue to completion (R45). -/
  pending : Word
  /-- STATUS.BUSY (R26). -/
  busy : Bool
  /-- STATUS.KEYVALID (R27). -/
  keyValid : Bool
  /-- STATUS.ERR (R28). -/
  err : Bool
  /-- STATUS.FIRST (R30). -/
  first : Bool
  /-- STATUS.STREAM, 2 bits (R29). -/
  stream : Stream
  /-- STATUS.ERRCODE, 4 bits (R28, R171). -/
  errCode : ErrCode
  /-- STATUS.NR, 4 bits (R27). -/
  nr : BitVec 4
  /-- OUTLEN, 5 bits (R33). -/
  outLen : BitVec 5
  /-- GFOP bits [7:0] (R34). -/
  gfa : Byte
  /-- GFOP bits [15:8] (R34). -/
  gfb : Byte
  /-- GFRES, 8 bits (R35). -/
  gfRes : Byte
  /-- STREAMLEN (R36). -/
  streamLen : Word
  /-- BLKREM (R37). -/
  blkRem : Word
  /-- KEY0..KEY7 (R38). -/
  key : Vector Word 8
  /-- IV0..IV3 (R39). -/
  iv : Vector Word 4
  /-- CV0..CV3 (R40). -/
  cv : Vector Word 4
  /-- DIN0..DIN3 (R41). -/
  din : Vector Word 4
  /-- DOUT0..DOUT3 (R42). -/
  dout : Vector Word 4
  /-- W0..W59, the expanded-key store (R43). -/
  w : Vector Word 60
  /-- The model's own: the events still to come, in order. It is the interleaving of R59 as plain data (assumption 1). -/
  agenda : List Event
  /-- The model's own: the word the last completed bus read returned to the host (assumption 2). -/
  readData : Word
  /-- The model's own: how many draws have been taken (assumption 3). -/
  draws : Nat
  deriving DecidableEq, Repr

/-- Why a step can fault. Both are host actions the spec leaves unspecified, for which it says the model records a
fault (R14, R176); both are safe. -/
inductive Fault where
  /-- R51, U1: a host access that is not 32 bits wide or not at a multiple of 4. Raised by `busRead` and `busWrite`; safe. -/
  | busAccess
  /-- R195, U2: a host write to any offset of the window while BUSY = 1. Raised by `busWrite`; safe. -/
  | busyWrite
  deriving DecidableEq, Repr

/-- Why a step can be refused. -/
inductive Refusal where
  /-- A command with no meaning yet, by its mnemonic. Raised by no arm of this model; safe. -/
  | notModelled (mnemonic : String)
  /-- R53, U8: a host access at an offset of 0x200 or above, which the block does not decode. Raised by `busRead` and
  `busWrite`; safe. -/
  | outsideWindow
  /-- R144, U10: a ciphertext stream too long for STREAMLEN (assumption 12). Raised by the host procedure `decryptStream` alone; safe. -/
  | streamTooLong
  deriving DecidableEq, Repr

/-- R190: "every register and field is 0". The model's own fields: no event is waiting, the read data bus holds 0 and
no draw has been taken (DESIGN CHOICE, assumptions 1 to 3). -/
def State.reset : State where
  lastCmd := 0#32
  pending := 0#32
  busy := false
  keyValid := false
  err := false
  first := false
  stream := .idle
  errCode := .none
  nr := 0#4
  outLen := 0#5
  gfa := 0#8
  gfb := 0#8
  gfRes := 0#8
  streamLen := 0#32
  blkRem := 0#32
  key := Vector.replicate 8 0#32
  iv := Vector.replicate 4 0#32
  cv := Vector.replicate 4 0#32
  din := Vector.replicate 4 0#32
  dout := Vector.replicate 4 0#32
  w := Vector.replicate 60 0#32
  agenda := []
  readData := 0#32
  draws := 0

end Sys2Proof.Machine
end

