-- ==== Sys2Proof/Machine/Flags.lean ====
section
/-! DEFINITION. The STATUS fields (10_state.md rule R25): their codes and the word a read of STATUS returns. There are no
condition codes or arithmetic flags (R31). -/

namespace Sys2Proof.Machine

/-- R29: the two-bit code of STREAM. -/
def Stream.code : Stream → BitVec 2
  | .idle => 0#2
  | .enc => 1#2
  | .dec => 2#2

/-- R171: the four-bit error code. -/
def ErrCode.code : ErrCode → BitVec 4
  | .none => 0#4
  | .unsupportedKeySize => 1#4
  | .invalidBlockSize => 2#4
  | .invalidCiphertextSize => 3#4
  | .noKey => 4#4
  | .sequence => 5#4
  | .illegalCommand => 6#4

/-- R25: the STATUS word: BUSY [0], KEYVALID [1], ERR [2], FIRST [3], STREAM [5:4], ERRCODE [11:8], NR [19:16], and the
reserved bits 0. -/
def statusWord (s : State) : Word :=
  (BitVec.ofBool s.busy).zeroExtend 32
    ||| ((BitVec.ofBool s.keyValid).zeroExtend 32 <<< 1)
    ||| ((BitVec.ofBool s.err).zeroExtend 32 <<< 2)
    ||| ((BitVec.ofBool s.first).zeroExtend 32 <<< 3)
    ||| (s.stream.code.zeroExtend 32 <<< 4)
    ||| (s.errCode.code.zeroExtend 32 <<< 8)
    ||| (s.nr.zeroExtend 32 <<< 16)

/-- R196: the STATUS word while BUSY = 1: "BUSY = 1 and every other STATUS bit a draw". -/
def busyStatusWord (draw : Word) : Word := draw ||| 1#32

end Sys2Proof.Machine
end

