-- ==== Sys2Proof/Machine/Galois.lean ====
section
/-! DEFINITION. The GF(2^8) multiply function (40_galois.md rule R90). -/

namespace Sys2Proof.Machine

/-- R90: one doubling of `a`: shift left by one bit within the byte and, if the bit shifted out was set, xor 0x1B. -/
def xtime (a : Byte) : Byte :=
  if a.getLsbD 7 then (a <<< 1) ^^^ 0x1B#8 else a <<< 1

/-- R90: `n` rounds of the loop, from the accumulator `acc` and the running operands `a` and `b`. -/
def multiplyLoop : Nat → Byte → Byte → Byte → Byte
  | 0, acc, _, _ => acc
  | n + 1, acc, a, b => multiplyLoop n (if b.getLsbD 0 then acc ^^^ a else acc) (xtime a) (b >>> 1)

/-- R90: `multiply(a, b)`, "for each of 8 bit positions". Total over all byte pairs. -/
def multiply (a b : Byte) : Byte := multiplyLoop 8 0x00#8 a b

end Sys2Proof.Machine
end

