-- ==== Sys2Proof/Machine/KeySchedule.lean ====
section
/-! DEFINITION. The key expansion (42_key_schedule.md rules R100 to R102) on byte sequences. -/

namespace Sys2Proof.Machine

/-- R100: `RotWord` "cyclically rotates the 4 bytes left by one position". -/
def rotWord (w : KeyWord) : KeyWord := #v[w[1], w[2], w[3], w[0]]

/-- R101: `SubWord` "substitutes each byte through the forward substitution table". -/
def subWord (w : KeyWord) : KeyWord := #v[sbox w[0], sbox w[1], sbox w[2], sbox w[3]]

/-- R102: the word (Rcon[j], 0, 0, 0). -/
def rconWord (j : Nat) : KeyWord := #v[rcon j, 0#8, 0#8, 0#8]

/-- R102: key-schedule word `j` of a list of words. Every read of the expansion is inside the list. -/
def wordAt (w : List KeyWord) (j : Nat) : KeyWord := w.getD j (Vector.replicate 4 0#8)

/-- R102: `temp` for word index `i`, from the previous word. -/
def scheduleTemp (nk i : Nat) (prev : KeyWord) : KeyWord :=
  if i % nk = 0 then xorBytes (subWord (rotWord prev)) (rconWord (i / nk))
  else if nk = 8 ∧ i % nk = 4 then subWord prev
  else prev

/-- R102: the word after the words `w`, whose index is `i = w.length`: `w[i-Nk] xor temp`. -/
def nextWord (nk : Nat) (w : List KeyWord) : KeyWord :=
  xorBytes (wordAt w (w.length - nk)) (scheduleTemp nk w.length (wordAt w (w.length - 1)))

/-- R102: `n` more words. -/
def extendWords (nk : Nat) : Nat → List KeyWord → List KeyWord
  | 0, w => w
  | n + 1, w => extendWords nk n (w ++ [nextWord nk w])

/-- R102: the first Nk words "equal the raw key, word-sliced": word i is key bytes 4i..4i+3, byte 4i first. -/
def keyWords (nk : Nat) (key : List Byte) : List KeyWord :=
  (List.range nk).map fun i =>
    #v[key.getD (4 * i) 0#8, key.getD (4 * i + 1) 0#8, key.getD (4 * i + 2) 0#8, key.getD (4 * i + 3) 0#8]

/-- R102: `KeyExpansion(key)`, the words w[0..4*(Nr+1)), for a key of 16, 24 or 32 bytes. -/
def keyExpansion (key : List Byte) : List KeyWord :=
  let nk := key.length / 4
  extendWords nk (4 * (nrOf nk + 1) - nk) (keyWords nk key)

end Sys2Proof.Machine
end

