-- ==== Sys2Proof/Machine/BlockTransform.lean ====
section
/-! DEFINITION. The forward and inverse block transform (43_block_transform.md rules R110 to R117) on the 4x4 matrix.
Round keys are given as a list of key-schedule words; the commands give the words held in the W store (R113). -/

namespace Sys2Proof.Machine

/-- The matrix whose entry at row r, column c is `f r c`. -/
def matrixOf (f : Fin 4 → Fin 4 → Byte) : Matrix :=
  Vector.ofFn fun r => Vector.ofFn fun c => f r c

/-- R110: `Load(B)`: byte i of the block goes to row i mod 4, column i div 4. -/
def loadBlock (b : Block) : Matrix :=
  matrixOf fun r c => b[4 * c.val + r.val]

/-- R110: `Store(s)`: byte i of the block is s[i mod 4][i div 4]. -/
def storeBlock (s : Matrix) : Block :=
  Vector.ofFn fun i => s[i.val % 4][i.val / 4]

/-- R111: SubBytes. -/
def subBytes (s : Matrix) : Matrix := matrixOf fun r c => sbox s[r][c]

/-- R111: InvSubBytes, "the same with InvSBox". -/
def invSubBytes (s : Matrix) : Matrix := matrixOf fun r c => invSbox s[r][c]

/-- R112: ShiftRows, s'[r][c] = s[r][(c + r) mod 4]. -/
def shiftRows (s : Matrix) : Matrix := matrixOf fun r c => s[r][c + r]

/-- R112: InvShiftRows, s'[r][c] = s[r][(c - r) mod 4]. -/
def invShiftRows (s : Matrix) : Matrix := matrixOf fun r c => s[r][c - r]

/-- R113: AddRoundKey with slot `slot`: s[row][col] xor w[4*slot + col][row]. -/
def addRoundKey (w : List KeyWord) (slot : Nat) (s : Matrix) : Matrix :=
  matrixOf fun r c => s[r][c] ^^^ (wordAt w (4 * slot + c.val))[r]

/-- R114: MixColumns: byte r of a column is 2·b[r] xor 3·b[(r+1) mod 4] xor b[(r+2) mod 4] xor b[(r+3) mod 4]
(the cyclic direction of 90_conflicts.md C7). -/
def mixColumns (s : Matrix) : Matrix :=
  matrixOf fun r c => multiply 0x02#8 s[r][c] ^^^ multiply 0x03#8 s[r + 1][c] ^^^ s[r + 2][c] ^^^ s[r + 3][c]

/-- R115: InvMixColumns, coefficients 14, 11, 13, 9 in the same cyclic pattern. -/
def invMixColumns (s : Matrix) : Matrix :=
  matrixOf fun r c =>
    multiply 0x0e#8 s[r][c] ^^^ multiply 0x0b#8 s[r + 1][c] ^^^ multiply 0x0d#8 s[r + 2][c] ^^^ multiply 0x09#8 s[r + 3][c]

/-- R116 step 3: one middle round. -/
def cipherRound (w : List KeyWord) (s : Matrix) (round : Nat) : Matrix :=
  addRoundKey w round (mixColumns (shiftRows (subBytes s)))

/-- R117: one middle round of the inverse: InvShiftRows, InvSubBytes, AddRoundKey, InvMixColumns. -/
def invCipherRound (w : List KeyWord) (s : Matrix) (round : Nat) : Matrix :=
  invMixColumns (addRoundKey w round (invSubBytes (invShiftRows s)))

/-- The middle rounds 1, ..., Nr-1 in order. -/
def middleRounds (nr : Nat) : List Nat := List.range' 1 (nr - 1)

/-- R116: `Cipher(B, w, Nr)`. -/
def cipher (b : Block) (w : List KeyWord) (nr : Nat) : Block :=
  let s := addRoundKey w 0 (loadBlock b)
  let s := (middleRounds nr).foldl (cipherRound w) s
  storeBlock (addRoundKey w nr (shiftRows (subBytes s)))

/-- R117: `InvCipher(B, w, Nr)`, the rounds from Nr-1 down to 1. -/
def invCipher (b : Block) (w : List KeyWord) (nr : Nat) : Block :=
  let s := addRoundKey w nr (loadBlock b)
  let s := (middleRounds nr).reverse.foldl (invCipherRound w) s
  storeBlock (addRoundKey w 0 (invSubBytes (invShiftRows s)))

end Sys2Proof.Machine
end

