-- ==== Sys2Proof/Machine/Operands.lean ====
section
/-! DEFINITION. The operands of the commands: byte lanes between registers and byte sequences (20_memory.md rule R52),
the key size code (30_encoding.md rule R73), the blocks a command reads, padding and unpadding (44_cbc_chainer.md
rules R133, R142). -/

namespace Sys2Proof.Machine

/-- R52: byte j of a register word is bits [8j+7:8j]. -/
def laneByte (v : Word) (j : Nat) : Byte := v.extractLsb' (8 * j) 8

/-- R52: the word of four bytes, b[0] | b[1]<<8 | b[2]<<16 | b[3]<<24. -/
def packWord (b : KeyWord) : Word :=
  b[0].zeroExtend 32 ||| (b[1].zeroExtend 32 <<< 8) ||| (b[2].zeroExtend 32 <<< 16) ||| (b[3].zeroExtend 32 <<< 24)

/-- R52: a register word as a 4-byte key-schedule word, (Wi[7:0], Wi[15:8], Wi[23:16], Wi[31:24]). -/
def unpackWord (v : Word) : KeyWord := #v[laneByte v 0, laneByte v 1, laneByte v 2, laneByte v 3]

/-- R52: `bytes16(R)`: byte 4k+j is R[k][8j+7:8j]. -/
def bytes16 (r : Vector Word 4) : Block :=
  Vector.ofFn fun i => laneByte r[i.val / 4] (i.val % 4)

/-- R12, R52: `words(B)`, the inverse packing: word k holds bytes 4k..4k+3. -/
def wordsOf (b : Block) : Vector Word 4 :=
  Vector.ofFn fun k => packWord #v[b[4 * k.val], b[4 * k.val + 1], b[4 * k.val + 2], b[4 * k.val + 3]]

/-- R38, R52: the 32 key bytes, byte 4k+j at KEY[k][8j+7:8j]. -/
def keyBytes (key : Vector Word 8) : Vector Byte 32 :=
  Vector.ofFn fun i => laneByte key[i.val / 4] (i.val % 4)

/-- R12, R52: `bytesN(x[KEY])`, the first `n` key bytes. -/
def bytesN (key : Vector Word 8) (n : Nat) : List Byte := (keyBytes key).toList.take n

/-- R73: Nk = 4 + 2*ksz for ksz ≤ 2. -/
def nkOf (ksz : BitVec 2) : Nat := 4 + 2 * ksz.toNat

/-- R43, R113: the key-schedule words held in the W store. -/
def storedWords (w : Vector Word 60) : List KeyWord := w.toList.map unpackWord

/-- R103, R104: the W store after the expansion of the first 4*Nk bytes of `key`: the 4*(Nr+1) words of the expansion,
and 0 in every word beyond them. -/
def expandedStore (ksz : BitVec 2) (key : Vector Word 8) : Vector Word 60 :=
  let words := keyExpansion (bytesN key (4 * nkOf ksz))
  Vector.ofFn fun i => if i.val < 4 * (nrOf (nkOf ksz) + 1) then packWord (wordAt words i.val) else 0#32

/-- R133: `Pad(D, n)`: the first n bytes of D, then 16-n bytes of the value 16-n. -/
def pad (d : Block) (n : Nat) : Block :=
  Vector.ofFn fun i => if i.val < n then d[i] else BitVec.ofNat 8 (16 - n)

/-- R142: `Unpad(P)`, the number of bytes to emit: 16 - P[15] if 1 ≤ P[15] ≤ 16, else 16. -/
def unpad (p : Block) : Nat :=
  if 1 ≤ p[15].toNat ∧ p[15].toNat ≤ 16 then 16 - p[15].toNat else 16

/-- R134: the block a chunk of `n ≤ 16` source bytes encrypts, or `none` (P = NONE) for an empty first chunk. -/
def chunkBlock (first : Bool) (d : Block) (n : Nat) : Option Block :=
  if n = 16 then some d
  else if first ∧ n = 0 then none
  else some (pad d n)

end Sys2Proof.Machine
end

