-- ==== Sys2Proof/Machine/Ops.lean ====
section
/-! DEFINITION. The shared operations on the state: issue, completion, wipe, end of stream, the error completion (the
one way a command ends in an error, 60_exceptions.md rule R170), key expansion into W, and the register window
(10_state.md rule R22). -/

namespace Sys2Proof.Machine

/-- R24: a host write of `v` to CMD while BUSY = 0 issues v. "No other state changes at issue." -/
def issue (v : Word) (s : State) : State :=
  { s with lastCmd := v, pending := v, err := false, errCode := .none, busy := true }

/-- R14: `complete` ends the command being executed. -/
def complete (s : State) : State := { s with busy := false }

/-- R160: `Wipe()`. -/
def wipe (s : State) : State :=
  { s with key := Vector.replicate 8 0#32, w := Vector.replicate 60 0#32, keyValid := false, nr := 0#4 }

/-- R150: `EndOfStream()`. -/
def endOfStream (s : State) : State :=
  { wipe s with stream := .idle, first := false, blkRem := 0#32 }

/-- R170: `ErrorCompletion(code)`: ERR and ERRCODE, the end of stream with its wipe, OUTLEN 0, BUSY 0. It is where every
`raise Error(code)` goes; there is no vector and no return from it (R174). -/
def errorCompletion (code : ErrCode) (s : State) : State :=
  { endOfStream { s with err := true, errCode := code } with outLen := 0#5, busy := false }

/-- R104: `ExpandInto(ksz)`, ksz ≤ 2: W, KEYVALID and NR from the first 4*Nk bytes of KEY. -/
def expandInto (ksz : BitVec 2) (s : State) : State :=
  { s with
    w := expandedStore ksz s.key
    keyValid := true
    nr := BitVec.ofNat 4 (nrOf (nkOf ksz)) }

/-- R120: `Cipher(b, W, NR)` with the expansion the block holds. -/
def cipherWith (s : State) (b : Block) : Block := cipher b (storedWords s.w) s.nr.toNat

/-- R121: `InvCipher(b, W, NR)` with the expansion the block holds. -/
def invCipherWith (s : State) (b : Block) : Block := invCipher b (storedWords s.w) s.nr.toNat

/-- R22: the offset of a register: the group's first offset plus 4k. -/
def Reg.offset : Reg → Nat
  | .id => 0x000
  | .cmd => 0x004
  | .status => 0x008
  | .outLen => 0x00C
  | .gfOp => 0x010
  | .gfRes => 0x014
  | .streamLen => 0x018
  | .blkRem => 0x01C
  | .key k => 0x040 + 4 * k.val
  | .iv k => 0x060 + 4 * k.val
  | .cv k => 0x070 + 4 * k.val
  | .din k => 0x080 + 4 * k.val
  | .dout k => 0x090 + 4 * k.val
  | .w k => 0x100 + 4 * k.val

/-- R22: every register of the window, in the order of the map. -/
def Reg.all : List Reg :=
  [.id, .cmd, .status, .outLen, .gfOp, .gfRes, .streamLen, .blkRem] ++
    (List.finRange 8).map .key ++ (List.finRange 4).map .iv ++ (List.finRange 4).map .cv ++
    (List.finRange 4).map .din ++ (List.finRange 4).map .dout ++ (List.finRange 60).map .w

/-- R22: the register at an offset of the window; `none` for a reserved offset (R44) and for a misaligned one. -/
def Reg.ofOffset (off : Nat) : Option Reg := Reg.all.find? fun r => r.offset == off

/-- What a read of a register returns while BUSY = 0 (R22 to R43). -/
def readReg (s : State) : Reg → Word
  | .id => Config.idValue
  | .cmd => s.lastCmd
  | .status => statusWord s
  | .outLen => s.outLen.zeroExtend 32
  | .gfOp => s.gfa.zeroExtend 32 ||| (s.gfb.zeroExtend 32 <<< 8)
  | .gfRes => s.gfRes.zeroExtend 32
  | .streamLen => s.streamLen
  | .blkRem => s.blkRem
  | .key k => s.key[k]
  | .iv k => s.iv[k]
  | .cv k => s.cv[k]
  | .din k => s.din[k]
  | .dout k => s.dout[k]
  | .w k => s.w[k]

/-- R22, R54: what a write of `v` to a register does while BUSY = 0: a read-only register ignores it, a read-write one
takes the whole word (GFOP its two bytes, R34), and CMD issues it (R24). -/
def writeReg (v : Word) (s : State) : Reg → State
  | .id => s
  | .cmd => issue v s
  | .status => s
  | .outLen => s
  | .gfOp => { s with gfa := v.extractLsb' 0 8, gfb := v.extractLsb' 8 8 }
  | .gfRes => s
  | .streamLen => { s with streamLen := v }
  | .blkRem => s
  | .key k => { s with key := s.key.set k v }
  | .iv k => { s with iv := s.iv.set k v }
  | .cv _ => s
  | .din k => { s with din := s.din.set k v }
  | .dout _ => s
  | .w _ => s

end Sys2Proof.Machine
end

