-- ==== Sys2Proof/Machine/BlockCommands.lean ====
section
/-! DEFINITION. The single-block commands (43_block_transform.md rules R120, R121). -/

namespace Sys2Proof.Machine

/-- R120, R121: the checks and the writes the two commands share: DOUT takes `transform` of the block in DIN. -/
def blockCommand (transform : Block → Block) (len : Nat) (s : State) : State :=
  if len ≠ 16 then errorCompletion .invalidBlockSize s
  else if s.keyValid = false then errorCompletion .noKey s
  else complete { s with dout := wordsOf (transform (bytes16 s.din)), outLen := 16#5 }

/-- R120: ENC_BLOCK: encrypt DIN into DOUT with the expansion in W. -/
def execEncBlock (len : Nat) (s : State) : Host.Outcome State Fault Refusal :=
  .next (blockCommand (cipherWith s) len s)

/-- R121: DEC_BLOCK: decrypt DIN into DOUT with the expansion in W. -/
def execDecBlock (len : Nat) (s : State) : Host.Outcome State Fault Refusal :=
  .next (blockCommand (invCipherWith s) len s)

end Sys2Proof.Machine
end

