-- ==== Sys2Proof/Machine/CbcChainer.lean ====
section
/-! DEFINITION. The CBC chainer's commands (44_cbc_chainer.md rules R131, R134, R140, R141). -/

namespace Sys2Proof.Machine

/-- R131: CBC_ENC_INIT: expand the key, copy the IV to CV and DOUT, open an encryption stream. -/
def execCbcEncInit (ksz : BitVec 2) (s : State) : Host.Outcome State Fault Refusal :=
  if s.stream ≠ .idle then .next (errorCompletion .sequence s)
  else if ksz = 3#2 then .next (errorCompletion .unsupportedKeySize s)
  else
    let s := expandInto ksz s
    .next (complete { s with cv := s.iv, dout := s.iv, outLen := 16#5, stream := .enc, first := true })

/-- R134, R135: the writes of a chunk's block, if it has one: the block is xored with CV before the cipher, and the
ciphertext goes to DOUT and CV. An empty first chunk sets OUTLEN to 0 and leaves DOUT and CV. -/
def emitChunk (block : Option Block) (s : State) : State :=
  match block with
  | some p =>
    let c := cipherWith s (xorBytes p (bytes16 s.cv))
    { s with dout := wordsOf c, cv := wordsOf c, outLen := 16#5 }
  | none => { s with outLen := 0#5 }

/-- R134: CBC_ENC_CHUNK: encrypt a chunk of `n` source bytes; n < 16 ends the stream. -/
def execCbcEncChunk (n : Nat) (s : State) : Host.Outcome State Fault Refusal :=
  if s.stream ≠ .enc then .next (errorCompletion .sequence s)
  else if n > 16 then .next (errorCompletion .invalidBlockSize s)
  else
    let s := { emitChunk (chunkBlock s.first (bytes16 s.din) n) s with first := false }
    let s := if n < 16 then endOfStream s else s
    .next (complete s)

/-- R140: CBC_DEC_INIT: expand the key, check STREAMLEN, open a decryption stream or, for an empty one, end it at once
(90_conflicts.md C1). The length check follows the expansion, which the error's wipe zeroes again (R170). -/
def execCbcDecInit (ksz : BitVec 2) (s : State) : Host.Outcome State Fault Refusal :=
  if s.stream ≠ .idle then .next (errorCompletion .sequence s)
  else if ksz = 3#2 then .next (errorCompletion .unsupportedKeySize s)
  else
    let s := expandInto ksz s
    if s.streamLen.toNat % 16 ≠ 0 then .next (errorCompletion .invalidCiphertextSize s)
    else
      let s := { s with cv := s.iv, outLen := 0#5 }
      if s.streamLen = 0#32 then .next (complete (endOfStream s))
      else .next (complete { s with stream := .dec, blkRem := s.streamLen })

/-- R141, R143: CBC_DEC_BLOCK: decrypt one block, xor it with CV, keep the raw ciphertext in CV; the block that takes
BLKREM to 0 is the last: it is unpadded (R142) and ends the stream (R150). -/
def execCbcDecBlock (len : Nat) (s : State) : Host.Outcome State Fault Refusal :=
  if s.stream ≠ .dec then .next (errorCompletion .sequence s)
  else if len ≠ 16 then .next (errorCompletion .invalidBlockSize s)
  else
    let p := xorBytes (invCipherWith s (bytes16 s.din)) (bytes16 s.cv)
    let s := { s with cv := s.din, dout := wordsOf p, blkRem := s.blkRem - 16#32 }
    if s.blkRem = 0#32 then .next (complete (endOfStream { s with outLen := BitVec.ofNat 5 (unpad p) }))
    else .next (complete { s with outLen := 16#5 })

end Sys2Proof.Machine
end

