-- ==== Sys2Proof/Machine/Control.lean ====
section
/-! DEFINITION. Key erasure (45_control.md rule R161). -/

namespace Sys2Proof.Machine

/-- R161: ZEROIZE: end any stream with its wipe, and zero IV, CV, DIN, DOUT and OUTLEN. -/
def execZeroize (s : State) : Host.Outcome State Fault Refusal :=
  let zero := Vector.replicate 4 0#32
  .next (complete { endOfStream s with iv := zero, cv := zero, din := zero, dout := zero, outLen := 0#5 })

end Sys2Proof.Machine
end

