-- ==== Sys2Proof/Machine/GfMul.lean ====
section
/-! DEFINITION. The GF(2^8) multiplier's command (40_galois.md rule R92). -/

namespace Sys2Proof.Machine

/-- R92: GF_MUL: GFRES takes multiply(GFA, GFB). Allowed in every stream state; it raises no error. -/
def execGfMul (s : State) : Host.Outcome State Fault Refusal :=
  .next (complete { s with gfRes := multiply s.gfa s.gfb })

end Sys2Proof.Machine
end

