-- ==== Sys2Proof/Machine/KeyExpand.lean ====
section
/-! DEFINITION. The key schedule expander's command (42_key_schedule.md rule R104). -/

namespace Sys2Proof.Machine

/-- R104: KEY_EXPAND, its checks in the order of R172. -/
def execKeyExpand (ksz : BitVec 2) (s : State) : Host.Outcome State Fault Refusal :=
  if s.stream ≠ .idle then .next (errorCompletion .sequence s)
  else if ksz = 3#2 then .next (errorCompletion .unsupportedKeySize s)
  else .next (complete (expandInto ksz s))

end Sys2Proof.Machine
end

