-- ==== Sys2Proof/Machine/Dispatch.lean ====
section
/-! DEFINITION. The completion of a decoded command (10_state.md rule R26): one arm per command. -/

namespace Sys2Proof.Machine

def exec (i : Instr) (s : State) : Host.Outcome State Fault Refusal :=
  match i with
  | .keyExpand ksz => Sys2Proof.Machine.execKeyExpand ksz s
  | .encBlock len => Sys2Proof.Machine.execEncBlock len s
  | .decBlock len => Sys2Proof.Machine.execDecBlock len s
  | .gfMul => Sys2Proof.Machine.execGfMul s
  | .cbcEncInit ksz => Sys2Proof.Machine.execCbcEncInit ksz s
  | .cbcEncChunk len => Sys2Proof.Machine.execCbcEncChunk len s
  | .cbcDecInit ksz => Sys2Proof.Machine.execCbcDecInit ksz s
  | .cbcDecBlock len => Sys2Proof.Machine.execCbcDecBlock len s
  | .zeroize => Sys2Proof.Machine.execZeroize s

end Sys2Proof.Machine
end

