-- ==== Sys2Proof/Machine/Engine.lean ====
section
/-! DEFINITION. The engine's one step (10_state.md rule R26) and the bus and platform events around it (20_memory.md,
70_reset_and_hazards.md): what each event of the agenda does. -/

namespace Sys2Proof.Machine

/-- R26, R77: the completion step: the word in PENDING is decoded and executed; a word that decodes to ILLEGAL ends in
the error completion IllegalCommand, "whatever the rest of the state". -/
def completion (s : State) : Host.Outcome State Fault Refusal :=
  match decode s.pending with
  | some i => exec i s
  | none => .next (errorCompletion .illegalCommand s)

/-- R20, R26: the engine's turn. Its step is enabled iff BUSY = 1; while it is not, the turn changes nothing. -/
def engineStep (s : State) : Host.Outcome State Fault Refusal :=
  if s.busy then completion s else .next s

/-- R51, R53: the checks on every host access: an offset of 0x200 or above does not reach the block, and inside the
window only 32-bit accesses at multiples of 4 are within the spec. -/
def guardAccess (width : AccessWidth) (off : Nat) (access : Host.Outcome State Fault Refusal) :
    Host.Outcome State Fault Refusal :=
  if Config.windowBytes ≤ off then .refused .outsideWindow
  else if width ≠ .word ∨ off % 4 ≠ 0 then .fault .busAccess
  else access

/-- R22, R44: what a read at an offset returns while BUSY = 0: a reserved offset reads 0. -/
def idleRead (s : State) (off : Nat) : Word :=
  match Reg.ofOffset off with
  | some r => readReg s r
  | none => 0#32

/-- R196: a read while BUSY = 1: ID and CMD read as always, STATUS reads BUSY = 1 and draws elsewhere, and every other
read returns a fresh draw (assumption 3; reserved offsets too, assumption 4). -/
def busyRead (s : State) (off : Nat) : State :=
  match Reg.ofOffset off with
  | some .id => { s with readData := Config.idValue }
  | some .cmd => { s with readData := s.lastCmd }
  | some .status => { s with readData := busyStatusWord (Config.draw s.draws), draws := s.draws + 1 }
  | _ => { s with readData := Config.draw s.draws, draws := s.draws + 1 }

/-- R54, R196: a read the block accepts. -/
def readAt (off : Nat) (s : State) : State :=
  if s.busy then busyRead s off else { s with readData := idleRead s off }

/-- R54: a write while BUSY = 0: a write to a reserved offset is ignored. -/
def idleWrite (off : Nat) (v : Word) (s : State) : State :=
  match Reg.ofOffset off with
  | some r => writeReg v s r
  | none => s

/-- R195: any write while BUSY = 1 is `fault(BUSY_WRITE)`. -/
def writeAt (off : Nat) (v : Word) (s : State) : Host.Outcome State Fault Refusal :=
  if s.busy then .fault .busyWrite else .next (idleWrite off v s)

/-- R54: `BusRead(off)`: the returned word goes to the host's read data and nothing of the block changes. -/
def busRead (width : AccessWidth) (off : Nat) (s : State) : Host.Outcome State Fault Refusal :=
  guardAccess width off (.next (readAt off s))

/-- R54, R195: `BusWrite(off, v)`. -/
def busWrite (width : AccessWidth) (off : Nat) (v : Word) (s : State) : Host.Outcome State Fault Refusal :=
  guardAccess width off (writeAt off v s)

/-- R190, R191: the reset event: every element of R21 takes its reset value, and a command in flight is abandoned. What
is outside the block (the events to come, the host's read data, the draws taken) stays. -/
def platformReset (s : State) : State :=
  { State.reset with agenda := s.agenda, readData := s.readData, draws := s.draws }

/-- R59: one event, atomic (R55). -/
def applyEvent (e : Event) (s : State) : Host.Outcome State Fault Refusal :=
  match e with
  | .busRead width off => busRead width off s
  | .busWrite width off v => busWrite width off v s
  | .engine => engineStep s
  | .reset => .next (platformReset s)

/-- R24: the host issues `v` and the engine has the next turn (for `State.withFetchWord`). -/
def issueNext (v : Word) (s : State) : State :=
  { issue v s with agenda := .engine :: s.agenda }

end Sys2Proof.Machine
end

