-- ==== Sys2Proof/Machine/Step.lean ====
section
/-! DEFINITION. The machine's step: the next event of the agenda, or, when none is waiting, the engine's turn. -/

namespace Sys2Proof.Machine

/-- R59: one step of the interleaving. The agenda says which agent moves; with an empty agenda the engine completes the
command in flight (R200: an issued command is eventually completed), and an idle block stays as it is (R183, R192). -/
def step (s : State) : Host.Outcome State Fault Refusal :=
  match s.agenda with
  | [] => engineStep s
  | e :: rest => applyEvent e { s with agenda := rest }

/-- The state in which the very next step completes the command word whose bits are `w`: the word is issued as R24
says, and the engine has the next turn. The block fetches nothing: a command is the word written to CMD (R62). -/
def State.withFetchWord (s : State) (nbits w : Nat) : State :=
  issueNext (tableWord nbits w) s

end Sys2Proof.Machine
end

