-- ==== Sys2Proof/Machine/Assembler.lean ====
section
/-! DEFINITION. The assembler's commands (30_encoding.md rules R82, R83) and the word each spells. The text of a line
(case, spaces, decimal or hexadecimal numbers) is notation and is left out (assumption 8). -/

namespace Sys2Proof.Machine

/-- R82, R83: the key size operand: absent, a size in bits, or `ksz=<0..3>`. -/
inductive KeySizeOperand where
  | absent
  | bits (n : Nat)
  | code (ksz : Nat)
  deriving DecidableEq, Repr

/-- R82: one command line. A `none` operand is the pseudo-instruction of R83. -/
inductive AsmCommand where
  | keyexp (size : KeySizeOperand)
  | encb (len : Option Nat)
  | decb (len : Option Nat)
  | gfmul
  | cbceInit (size : KeySizeOperand)
  | cbceChunk (n : Nat)
  | cbcdInit (size : KeySizeOperand)
  | cbcdBlk (len : Option Nat)
  | zeroize
  | word (v : Word)
  deriving DecidableEq, Repr

/-- R82, R83: the key size code an operand spells; `none` where the operand has no spelling in the table. -/
def KeySizeOperand.ksz : KeySizeOperand → Option (BitVec 2)
  | .absent => some 0#2
  | .bits n => if n = 128 then some 0#2 else if n = 192 then some 1#2 else if n = 256 then some 2#2 else none
  | .code k => if k < 4 then some (BitVec.ofNat 2 k) else none

/-- R82: a byte count operand, 0..31. -/
def lenOperand (len : Nat) : Option Nat := if len < 32 then some len else none

/-- R82, R83: the word a command line spells; `none` for an operand out of range. -/
def assemble : AsmCommand → Option Word
  | .keyexp size => size.ksz.map fun k => encode (.keyExpand k)
  | .encb len => (lenOperand (len.getD 16)).map fun n => encode (.encBlock n)
  | .decb len => (lenOperand (len.getD 16)).map fun n => encode (.decBlock n)
  | .gfmul => some (encode .gfMul)
  | .cbceInit size => size.ksz.map fun k => encode (.cbcEncInit k)
  | .cbceChunk n => (lenOperand n).map fun n => encode (.cbcEncChunk n)
  | .cbcdInit size => size.ksz.map fun k => encode (.cbcDecInit k)
  | .cbcdBlk len => (lenOperand (len.getD 16)).map fun n => encode (.cbcDecBlock n)
  | .zeroize => some (encode .zeroize)
  | .word v => some v

end Sys2Proof.Machine
end

