-- ==== Sys2Proof/Machine/HostProcedures.lean ====
section
/-! DEFINITION. The host's side of the interface, as far as the spec gives it: host programs as sequences of events
(30_encoding.md rule R84) and the procedures `encryptStream` and `decryptStream` (44_cbc_chainer.md rules R136, R144). -/

namespace Sys2Proof.Machine

/-- R9, R53: the window offset of a bus address, if the address lies in this block's window at `Config.base`. -/
def windowOffset (addr : Nat) : Option Nat :=
  if Config.base ≤ addr ∧ addr < Config.base + Config.windowBytes then some (addr - Config.base) else none

/-- Sequencing of outcomes: the second part runs from the state the first part answers. -/
def andThen {α β : Type} (o : Host.Outcome α Fault Refusal) (f : α → Host.Outcome β Fault Refusal) :
    Host.Outcome β Fault Refusal :=
  match o with
  | .next a => f a
  | .fault r => .fault r
  | .refused r => .refused r

/-- R59: the events of a list, one after the other. -/
def runEvents : List Event → State → Host.Outcome State Fault Refusal
  | [], s => .next s
  | e :: es, s => andThen (applyEvent e s) (runEvents es)

/-- R84: `wr <reg>, <value>`. -/
def wr (r : Reg) (v : Word) : Event := .busWrite .word r.offset v

/-- R84: `rd <reg>`. -/
def rd (r : Reg) : Event := .busRead .word r.offset

/-- R84: `poll`, the loop that reads STATUS until BUSY = 0, when the engine's step comes after `n` reads (R200: any
finite number). -/
def poll (n : Nat) : List Event := List.replicate n (rd .status) ++ [.engine, rd .status]

/-- R84: `run <command>`: `cmd` followed by `poll`. -/
def run (i : Instr) (n : Nat) : List Event := wr .cmd (encode i) :: poll n

/-- R52: the word of bytes 4k..4k+3 of a byte sequence, as the host writes it to word k of a register group. -/
def hostWord (b : List Byte) (k : Nat) : Word :=
  packWord #v[b.getD (4 * k) 0#8, b.getD (4 * k + 1) 0#8, b.getD (4 * k + 2) 0#8, b.getD (4 * k + 3) 0#8]

/-- R136, R144: "write key bytes to KEY0..", one word for each four bytes of the key. -/
def writeKey (key : List Byte) : List Event :=
  ((List.finRange 8).filter fun k => 4 * k.val < key.length).map fun k => wr (.key k) (hostWord key k)

/-- R136, R144: the four words of IV. -/
def writeIv (iv : List Byte) : List Event := (List.finRange 4).map fun k => wr (.iv k) (hostWord iv k)

/-- R136, R144: the four words of DIN. -/
def writeDin (b : List Byte) : List Event := (List.finRange 4).map fun k => wr (.din k) (hostWord b k)

/-- R33: the bytes the host emits, bytes16(x[DOUT])[0..OUTLEN). -/
def emitted (s : State) : List Byte := (bytes16 s.dout).toList.take s.outLen.toNat

/-- What a host procedure ends with: the block's state, the bytes emitted and the error it stopped with, if any. -/
structure StreamResult where
  state : State
  output : List Byte
  error : ErrCode
  deriving DecidableEq, Repr

/-- R136: "next min(16, remaining) bytes of source": the chunks up to the one that exhausts it, `n` full ones at most
before it. -/
def takeChunks : Nat → List Byte → List (List Byte)
  | 0, src => [src]
  | n + 1, src => if src.length < 16 then [src] else src.take 16 :: takeChunks n (src.drop 16)

/-- R136: the chunks of a source; the last has fewer than 16 bytes. -/
def chunksOf (src : List Byte) : List (List Byte) := takeChunks (src.length / 16) src

/-- R136: the loop over the chunks. `fill` supplies bytes n..15 of DIN ("any value"), `polls` the reads before each
completion. -/
def encryptChunks (polls : Nat) (fill : List Byte) : List (List Byte) → State → List Byte →
    Host.Outcome StreamResult Fault Refusal
  | [], s, out => .next ⟨s, out, .none⟩
  | chunk :: rest, s, out =>
    andThen (runEvents (writeDin ((chunk ++ fill).take 16) ++ run (.cbcEncChunk chunk.length) polls) s) fun s =>
      if s.err then .next ⟨s, out, s.errCode⟩
      else if chunk.length < 16 then .next ⟨s, out ++ emitted s, .none⟩
      else encryptChunks polls fill rest s (out ++ emitted s)

/-- R136: `encryptStream(source, key, iv)`. Only a chunk's error stops it: after an error of CBCE.INIT, OUTLEN is 0, so
nothing is emitted, and the first chunk stops with Sequence. -/
def encryptStream (polls : Nat) (fill : List Byte) (ksz : BitVec 2) (key iv source : List Byte) (s : State) :
    Host.Outcome StreamResult Fault Refusal :=
  andThen (runEvents (writeKey key ++ writeIv iv ++ run (.cbcEncInit ksz) polls) s) fun s =>
    encryptChunks polls fill (chunksOf source) s (emitted s)

/-- R144: the loop "while STATUS.STREAM == DEC" over the 16-byte blocks still to come. -/
def decryptBlocks (polls : Nat) : List (List Byte) → State → List Byte → Host.Outcome StreamResult Fault Refusal
  | [], s, out => .next ⟨s, out, .none⟩
  | block :: rest, s, out =>
    if s.stream ≠ .dec then .next ⟨s, out, .none⟩
    else
      andThen (runEvents (writeDin block ++ run (.cbcDecBlock 16) polls) s) fun s =>
        if s.err then .next ⟨s, [], s.errCode⟩
        else decryptBlocks polls rest s (out ++ emitted s)

/-- R144: `decryptStream(ciphertext, key)`. A ciphertext of fewer than 16 bytes has no IV and is the host's own error; one
too long for STREAMLEN is refused (R144; DESIGN CHOICE between R144's bound and U10's, assumption 12); on an error the output
is discarded. -/
def decryptStream (polls : Nat) (ksz : BitVec 2) (key ct : List Byte) (s : State) :
    Host.Outcome StreamResult Fault Refusal :=
  if ct.length < 16 then .next ⟨s, [], .invalidCiphertextSize⟩
  else if 2 ^ 32 ≤ ct.length - 16 then .refused .streamTooLong
  else
    andThen (runEvents (writeKey key ++ writeIv (ct.take 16) ++
        [wr .streamLen (BitVec.ofNat 32 (ct.length - 16))] ++ run (.cbcDecInit ksz) polls) s) fun s =>
      if s.err then .next ⟨s, [], s.errCode⟩
      else decryptBlocks polls (chunksOf (ct.drop 16)) s []

end Sys2Proof.Machine
end

