-- ==== Sys2Proof/Safety.lean ====
section
/-! DEFINITION. What counts as a safe run: the host keeps the bus rules (20_memory.md rules R51, R53;
70_reset_and_hazards.md rule R195), and the state keeps the relations the spec gives between its fields. -/

namespace Sys2Proof.Machine

/-- A host access the block decodes and the spec specifies: 32 bits wide, at a multiple of 4, inside the window. -/
def goodAccess (width : AccessWidth) (off : Nat) : Bool :=
  decide (width = .word) && decide (off % 4 = 0) && decide (off < Config.windowBytes)

/-- A conforming rest of a run, from the value of BUSY: every access is a good one and no write happens while BUSY = 1.
A write to CMD (offset 4) sets BUSY; the engine's turn and a reset clear it. -/
def conforming : Bool → List Event → Bool
  | _, [] => true
  | busy, .busRead width off :: es => goodAccess width off && conforming busy es
  | busy, .busWrite width off _ :: es => goodAccess width off && !busy && conforming (off == 0x004) es
  | _, .engine :: es => conforming false es
  | _, .reset :: es => conforming false es

/-- A safe run: no number of steps ends in a fault or a refusal. -/
def State.RunsSafely (s : State) : Prop := ∀ k, ∃ t, Sys2Proof.core.run k s = .next t

/-- The relations between the fields that every run keeps. -/
structure State.Inv (s : State) : Prop where
  /-- R24: no error is recorded while a command is in flight. -/
  busy_no_error : s.busy = true → s.err = false
  /-- R24, R45: CMD reads the command in flight. -/
  busy_last : s.busy = true → s.lastCmd = s.pending
  /-- R25: ERRCODE is 0 exactly when ERR = 0. -/
  err_iff_code : s.err = true ↔ s.errCode ≠ .none
  /-- R174, R170: "after an error the block is IDLE with no key", with nothing to emit. -/
  err_closed : s.err = true → s.stream = .idle ∧ s.keyValid = false ∧ s.outLen = 0#5
  /-- R30: FIRST "is 0 whenever STREAM ≠ ENC". -/
  first_enc : s.first = true → s.stream = .enc
  /-- R37: BLKREM "is 0 whenever STREAM ≠ DEC". -/
  rem_dec : s.stream ≠ .dec → s.blkRem = 0#32
  /-- R141: BLKREM "is a positive multiple of 16 whenever STREAM = DEC". -/
  dec_rem : s.stream = .dec → 0 < s.blkRem.toNat ∧ s.blkRem.toNat % 16 = 0
  /-- R131, R140, R150: a stream is open only with an expansion in W. -/
  stream_key : s.stream ≠ .idle → s.keyValid = true
  /-- R27, R43, R104: KEYVALID = 1 implies that NR and W are those of the expansion of some key. -/
  key_store : s.keyValid = true → ∃ ksz key, ksz ≠ 3#2 ∧ s.nr = BitVec.ofNat 4 (nrOf (nkOf ksz)) ∧ s.w = expandedStore ksz key
  /-- R25, R160: with KEYVALID = 0, NR is 0 and W holds nothing. -/
  no_key_store : s.keyValid = false → s.nr = 0#4 ∧ s.w = Vector.replicate 60 0#32
  /-- R33: OUTLEN is 0..16. -/
  outLen_le : s.outLen.toNat ≤ 16

end Sys2Proof.Machine
end

