-- ==== Sys2Proof/Certificates/Slice0/Obligations.lean ====
section
/-! DEFINITION. The statements for the provers, from the spec's numbered rules, and the few words they are written in. -/

open Sys2Proof Sys2Proof.Machine

namespace Sys2Proof.Claims

/-- R150, R160, written out field by field: the key material wiped and the stream closed. -/
def closed (s : Machine.State) : Machine.State :=
  { s with key := Vector.replicate 8 0#32, w := Vector.replicate 60 0#32, keyValid := false, nr := 0#4,
           stream := .idle, first := false, blkRem := 0#32 }

/-- R170, written out field by field: the whole change an error completion makes. -/
def errorState (code : ErrCode) (s : Machine.State) : Machine.State :=
  { closed s with err := true, errCode := code, outLen := 0#5, busy := false }

/-- R135: the ciphertext block of a plaintext block in a stream: xor with CV before the cipher. -/
def chained (s : Machine.State) (p : Block) : Block :=
  cipher (xorBytes p (bytes16 s.cv)) (storedWords s.w) s.nr.toNat

/-- R143: the plaintext block of the ciphertext block in DIN: xor with CV after the inverse cipher. -/
def unchained (s : Machine.State) : Block :=
  xorBytes (invCipher (bytes16 s.din) (storedWords s.w) s.nr.toNat) (bytes16 s.cv)

/-- R130, the table: the stream states that admit a command. -/
def admits : Instr → Machine.Stream → Bool
  | .keyExpand _, st => st == .idle
  | .encBlock _, _ => true
  | .decBlock _, _ => true
  | .gfMul, _ => true
  | .cbcEncInit _, st => st == .idle
  | .cbcEncChunk _, st => st == .enc
  | .cbcDecInit _, st => st == .idle
  | .cbcDecBlock _, st => st == .dec
  | .zeroize, _ => true

/-- R73, R171: the command asks for a key size the source does not admit. -/
def badKeySize : Instr → Bool
  | .keyExpand ksz => ksz == 3#2
  | .cbcEncInit ksz => ksz == 3#2
  | .cbcDecInit ksz => ksz == 3#2
  | _ => false

/-- R72, R171: the command does not accept its LEN. -/
def badLength : Instr → Bool
  | .encBlock len => len != 16
  | .decBlock len => len != 16
  | .cbcEncChunk n => decide (16 < n)
  | .cbcDecBlock len => len != 16
  | _ => false

/-- R171: the command needs an expansion in W and none is there. -/
def lacksKey : Instr → Machine.State → Bool
  | .encBlock _, s => !s.keyValid
  | .decBlock _, s => !s.keyValid
  | _, _ => false

/-- R171: CBC_DEC_INIT with a STREAMLEN that is no multiple of 16. -/
def badStreamLength : Instr → Machine.State → Bool
  | .cbcDecInit _, s => s.streamLen.toNat % 16 != 0
  | _, _ => false

/-- R172: the first error, in the order of the rule, that applies to a decoded command. -/
def firstError (i : Instr) (s : Machine.State) : ErrCode :=
  if admits i s.stream = false then .sequence
  else if badKeySize i then .unsupportedKeySize
  else if badLength i then .invalidBlockSize
  else if lacksKey i s then .noKey
  else if badStreamLength i s then .invalidCiphertextSize
  else .none

/-- The engine has the next turn: no event waits, or the next one is its turn. -/
def enginesTurn (s : Machine.State) : Prop := s.agenda = [] ∨ ∃ rest, s.agenda = .engine :: rest

end Sys2Proof.Claims

open Sys2Proof.Claims

/-! ## Encoding -/

/-- R75, R76, R77: no bit of a command word is dropped. -/
def Obligations.DecodeOfEncodeIsTheCommand : Prop :=
  ∀ i : Instr, i.WellFormed → decode (encode i) = some i ∧ decodeTableWord 32 (encode i).toNat = some i

/-- R76, R77: every word that decodes is the one word of a well-formed command. -/
def Obligations.DecodedWordIsTheCommandsWord : Prop :=
  ∀ (v : Word) (i : Instr), decode v = some i → i.WellFormed ∧ encode i = v

/-- R78: the illegal words are those of its three clauses, and each completes with IllegalCommand. -/
def Obligations.IllegalWordsAndTheirCompletion : Prop :=
  (∀ v : Word, decode v = none ↔
    (v.extractLsb' 0 8 = 0#8 ∨ 0x0A ≤ (v.extractLsb' 0 8).toNat) ∨
    (v.extractLsb' 13 3 ≠ 0#3 ∨ v.extractLsb' 18 14 ≠ 0#14) ∨
    (v.extractLsb' 16 2 ≠ 0#2 ∧ v.extractLsb' 0 8 ∈ [0x02#8, 0x03#8, 0x04#8, 0x06#8, 0x08#8, 0x09#8]) ∨
    (v.extractLsb' 8 5 ≠ 0#5 ∧ v.extractLsb' 0 8 ∈ [0x01#8, 0x04#8, 0x05#8, 0x07#8, 0x09#8])) ∧
  (∀ s : Machine.State, s.busy = true → decode s.pending = none →
    engineStep s = .next (errorState .illegalCommand s))

/-- R82: words of the syntax table decode to the commands they spell. -/
def Obligations.SampleWordsDecode : Prop :=
  decode 0x00010001#32 = some (.keyExpand 1#2) ∧ decode 0x00030001#32 = some (.keyExpand 3#2) ∧
  decode 0x00001002#32 = some (.encBlock 16) ∧ decode 0x00001F03#32 = some (.decBlock 31) ∧
  decode 0x00000004#32 = some .gfMul ∧ decode 0x00020005#32 = some (.cbcEncInit 2#2) ∧
  decode 0x00000106#32 = some (.cbcEncChunk 1) ∧ decode 0x00000007#32 = some (.cbcDecInit 0#2) ∧
  decode 0x00001008#32 = some (.cbcDecBlock 16) ∧ decode 0x00000009#32 = some .zeroize ∧
  decode 0x00000000#32 = none ∧ decode 0x80000009#32 = none

/-- R83: the pseudo-instructions. -/
def Obligations.PseudoInstructionsSpellTheirWords : Prop :=
  assemble (.encb none) = assemble (.encb (some 16)) ∧ assemble (.encb none) = some 0x00001002#32 ∧
  assemble (.decb none) = assemble (.decb (some 16)) ∧ assemble (.decb none) = some 0x00001003#32 ∧
  assemble (.cbcdBlk none) = assemble (.cbcdBlk (some 16)) ∧ assemble (.cbcdBlk none) = some 0x00001008#32 ∧
  assemble (.keyexp .absent) = assemble (.keyexp (.bits 128)) ∧ assemble (.keyexp .absent) = some 0x00000001#32 ∧
  assemble (.cbceInit .absent) = assemble (.cbceInit (.bits 128)) ∧ assemble (.cbceInit .absent) = some 0x00000005#32 ∧
  assemble (.cbcdInit .absent) = assemble (.cbcdInit (.bits 128)) ∧ assemble (.cbcdInit .absent) = some 0x00000007#32

/-! ## Steps, reset, bus -/

/-- R26: a step in which the engine has the turn executes the command in PENDING; with BUSY = 0 it does nothing. The agenda
is the model's own (assumption 1). -/
def Obligations.StepExecutesThePendingCommand : Prop :=
  (∀ (s : Machine.State) (i : Instr), s.agenda = [] → s.busy = true → decode s.pending = some i → step s = exec i s) ∧
  (∀ (s : Machine.State) (rest : List Event) (i : Instr), s.agenda = .engine :: rest → s.busy = true →
    decode s.pending = some i → step s = exec i { s with agenda := rest }) ∧
  (∀ (s : Machine.State) (rest : List Event), s.agenda = .engine :: rest → s.busy = false →
    step s = .next { s with agenda := rest }) ∧
  (∀ s : Machine.State, s.agenda = [] → s.busy = false → step s = .next s) ∧
  (∀ (s : Machine.State) (i : Instr), i.WellFormed →
    step (s.withFetchWord 32 (encode i).toNat) = exec i (issue (encode i) s))

/-- R26: every word, legal or not, completes, and the completion sets BUSY to 0. -/
def Obligations.EveryIssuedWordCompletes : Prop :=
  ∀ s : Machine.State, s.busy = true → enginesTurn s → ∃ t, step s = .next t ∧ t.busy = false

/-- R190: what the reset state holds, register by register, and that ID reads the same at all times. -/
def Obligations.ResetStateHoldsZero : Prop :=
  (∀ r : Reg, readReg State.reset r = if r = .id then 0x41455301#32 else 0#32) ∧
  State.reset.pending = 0#32 ∧ State.reset.busy = false ∧ State.reset.keyValid = false ∧ State.reset.err = false ∧
  State.reset.first = false ∧ State.reset.stream = .idle ∧ State.reset.errCode = .none ∧ State.reset.nr = 0#4 ∧
  (∀ s : Machine.State, busRead .word 0x000 s = .next { s with readData := 0x41455301#32 })

/-- R191: a reset, also one during a command, gives the reset state and none of the command's effects. What becomes of the
model's own fields it does not say. -/
def Obligations.ResetAbandonsTheCommand : Prop :=
  ∀ s : Machine.State, ∃ t, applyEvent .reset s = .next t ∧
    t = { State.reset with agenda := t.agenda, readData := t.readData, draws := t.draws }

/-- R22: the offsets of the map, that offsets and registers correspond one to one, and that the offsets left are the
reserved ones. -/
def Obligations.RegisterMapIsOneToOne : Prop :=
  (Reg.id.offset = 0x000 ∧ Reg.cmd.offset = 0x004 ∧ Reg.status.offset = 0x008 ∧ Reg.outLen.offset = 0x00C ∧
    Reg.gfOp.offset = 0x010 ∧ Reg.gfRes.offset = 0x014 ∧ Reg.streamLen.offset = 0x018 ∧ Reg.blkRem.offset = 0x01C ∧
    (∀ k, (Reg.key k).offset = 0x040 + 4 * k.val) ∧ (∀ k, (Reg.iv k).offset = 0x060 + 4 * k.val) ∧
    (∀ k, (Reg.cv k).offset = 0x070 + 4 * k.val) ∧ (∀ k, (Reg.din k).offset = 0x080 + 4 * k.val) ∧
    (∀ k, (Reg.dout k).offset = 0x090 + 4 * k.val) ∧ (∀ k, (Reg.w k).offset = 0x100 + 4 * k.val)) ∧
  (∀ r : Reg, Reg.ofOffset r.offset = some r ∧ r.offset % 4 = 0 ∧ r.offset < 0x200) ∧
  (∀ (off : Nat) (r : Reg), Reg.ofOffset off = some r → r.offset = off) ∧
  (∀ off : Nat, off < 0x200 → off % 4 = 0 → (Reg.ofOffset off = none ↔
    (0x020 ≤ off ∧ off ≤ 0x03C) ∨ (0x0A0 ≤ off ∧ off ≤ 0x0FC) ∨ (0x1F0 ≤ off ∧ off ≤ 0x1FC)))

/-- R54: a read changes nothing of the block, and two reads with no write or completion between them, while BUSY = 0,
return the same word. -/
def Obligations.ReadsHaveNoSideEffect : Prop :=
  (∀ (width : AccessWidth) (off : Nat) (s t : Machine.State), busRead width off s = .next t →
    t = { s with readData := t.readData, draws := t.draws }) ∧
  (∀ (off : Nat) (s : Machine.State), off < 0x200 → off % 4 = 0 → s.busy = false →
    ∃ t, busRead .word off s = .next t ∧ t.readData = idleRead s off ∧ busRead .word off t = .next t)

/-- R22, R25, R33 to R43, R44: what a read returns while BUSY = 0, register by register, and that a reserved offset reads 0.
That the word goes to `readData` and nothing else changes is the form of assumption 2. -/
def Obligations.IdleReadsReturnTheRegisters : Prop :=
  ∀ s : Machine.State, s.busy = false →
    let reads := fun (off : Nat) (v : Word) => busRead .word off s = .next { s with readData := v }
    reads 0x000 0x41455301#32 ∧ reads 0x004 s.lastCmd ∧ reads 0x008 (statusWord s) ∧
    reads 0x00C (BitVec.ofNat 32 s.outLen.toNat) ∧ reads 0x010 (BitVec.ofNat 32 (s.gfa.toNat + 256 * s.gfb.toNat)) ∧
    reads 0x014 (BitVec.ofNat 32 s.gfRes.toNat) ∧ reads 0x018 s.streamLen ∧ reads 0x01C s.blkRem ∧
    (∀ k : Fin 8, reads (0x040 + 4 * k.val) s.key[k]) ∧ (∀ k : Fin 4, reads (0x060 + 4 * k.val) s.iv[k]) ∧
    (∀ k : Fin 4, reads (0x070 + 4 * k.val) s.cv[k]) ∧ (∀ k : Fin 4, reads (0x080 + 4 * k.val) s.din[k]) ∧
    (∀ k : Fin 4, reads (0x090 + 4 * k.val) s.dout[k]) ∧ (∀ k : Fin 60, reads (0x100 + 4 * k.val) s.w[k]) ∧
    (∀ off : Nat, off % 4 = 0 → (0x020 ≤ off ∧ off ≤ 0x03C) ∨ (0x0A0 ≤ off ∧ off ≤ 0x0FC) ∨ (0x1F0 ≤ off ∧ off ≤ 0x1FC) →
      reads off 0#32)

/-- R54, R22, R34, R44: the whole next state of an idle write to a read-write register; one to a read-only register or a
reserved offset changes nothing; what is written is read back (GFOP its low 16 bits), and no write but the one to CMD
changes what another offset reads. -/
def Obligations.WritesChangeOnlyTheirRegister : Prop :=
  (∀ (v : Word) (s : Machine.State), s.busy = false →
    busWrite .word 0x010 v s = .next { s with gfa := v.extractLsb' 0 8, gfb := v.extractLsb' 8 8 } ∧
    busWrite .word 0x018 v s = .next { s with streamLen := v } ∧
    (∀ k : Fin 8, busWrite .word (0x040 + 4 * k.val) v s = .next { s with key := s.key.set k v }) ∧
    (∀ k : Fin 4, busWrite .word (0x060 + 4 * k.val) v s = .next { s with iv := s.iv.set k v }) ∧
    (∀ k : Fin 4, busWrite .word (0x080 + 4 * k.val) v s = .next { s with din := s.din.set k v })) ∧
  ∀ (off : Nat) (v : Word) (s : Machine.State), off < 0x200 → off % 4 = 0 → s.busy = false →
    ∃ t, busWrite .word off v s = .next t ∧
      ((off = 0x018 ∨ (0x040 ≤ off ∧ off < 0x070) ∨ (0x080 ≤ off ∧ off < 0x090)) → idleRead t off = v) ∧
      (off = 0x010 → idleRead t off = v &&& 0x0000FFFF#32) ∧
      ((off ≠ 0x004 ∧ off ≠ 0x010 ∧ off ≠ 0x018 ∧ ¬(0x040 ≤ off ∧ off < 0x070) ∧ ¬(0x080 ≤ off ∧ off < 0x090)) → t = s) ∧
      (off ≠ 0x004 → ∀ off' : Nat, off' % 4 = 0 → off' ≠ off → idleRead t off' = idleRead s off')

/-- R24: what a write to CMD does, what a read of CMD returns, and that a write while BUSY = 1 is the hazard. -/
def Obligations.IssueChangesWhatR24Names : Prop :=
  (∀ (v : Word) (s : Machine.State), s.busy = false → busWrite .word 0x004 v s =
    .next { s with lastCmd := v, pending := v, err := false, errCode := .none, busy := true }) ∧
  (∀ (v : Word) (s : Machine.State), s.busy = true → busWrite .word 0x004 v s = .fault .busyWrite) ∧
  (∀ s : Machine.State, busRead .word 0x004 s = .next { s with readData := s.lastCmd }) ∧
  State.reset.lastCmd = 0#32

/-- R51, R53, R195: when a host access stops the model, and by which name. That the offset is looked at before the width
and the alignment, and these before BUSY, is the model's choice (assumption 5). -/
def Obligations.BusAccessesThatStop : Prop :=
  ∀ (width : AccessWidth) (off : Nat) (v : Word) (s : Machine.State),
    (0x200 ≤ off → busRead width off s = .refused .outsideWindow ∧ busWrite width off v s = .refused .outsideWindow) ∧
    (off < 0x200 → (width ≠ .word ∨ off % 4 ≠ 0) →
      busRead width off s = .fault .busAccess ∧ busWrite width off v s = .fault .busAccess) ∧
    (off < 0x200 → width = .word → off % 4 = 0 → s.busy = true → busWrite width off v s = .fault .busyWrite) ∧
    (off < 0x200 → width = .word → off % 4 = 0 → s.busy = false → ∃ t, busWrite width off v s = .next t) ∧
    (off < 0x200 → width = .word → off % 4 = 0 → ∃ t, busRead width off s = .next t)

/-- R196: what a read returns while BUSY = 1. That a reserved offset, too, returns a draw is the model's choice
(assumption 4); the statement holds whatever the draws are. -/
def Obligations.BusyReadsAreDraws : Prop :=
  ∀ s : Machine.State, s.busy = true →
    busRead .word 0x000 s = .next { s with readData := 0x41455301#32 } ∧
    busRead .word 0x004 s = .next { s with readData := s.lastCmd } ∧
    (∃ t, busRead .word 0x008 s = .next t ∧ t.readData.getLsbD 0 = true ∧
      (∀ k : Nat, 0 < k → t.readData.getLsbD k = (Config.draw s.draws).getLsbD k) ∧ t.draws = s.draws + 1) ∧
    (∀ off : Nat, 0x00C ≤ off → off < 0x200 → off % 4 = 0 →
      busRead .word off s = .next { s with readData := Config.draw s.draws, draws := s.draws + 1 })

/-- R25, R29, R171: the layout of STATUS, with the codes of STREAM and ERRCODE. -/
def Obligations.StatusWordLayout : Prop :=
  ∀ s : Machine.State,
    (statusWord s).extractLsb' 0 1 = BitVec.ofBool s.busy ∧
    (statusWord s).extractLsb' 1 1 = BitVec.ofBool s.keyValid ∧
    (statusWord s).extractLsb' 2 1 = BitVec.ofBool s.err ∧
    (statusWord s).extractLsb' 3 1 = BitVec.ofBool s.first ∧
    ((statusWord s).extractLsb' 4 2).toNat = (match s.stream with | .idle => 0 | .enc => 1 | .dec => 2) ∧
    (statusWord s).extractLsb' 6 2 = 0#2 ∧
    ((statusWord s).extractLsb' 8 4).toNat = (match s.errCode with
      | .none => 0
      | .unsupportedKeySize => 1
      | .invalidBlockSize => 2
      | .invalidCiphertextSize => 3
      | .noKey => 4
      | .sequence => 5
      | .illegalCommand => 6) ∧
    (statusWord s).extractLsb' 12 4 = 0#4 ∧
    (statusWord s).extractLsb' 16 4 = s.nr ∧
    (statusWord s).extractLsb' 20 12 = 0#12

/-- R52: the byte lanes, and that packing and unpacking are inverse. -/
def Obligations.ByteLanesAreLittleEndian : Prop :=
  (∀ (r : Vector Word 4) (k j : Fin 4),
    (bytes16 r)[4 * k.val + j.val] = r[k].extractLsb' (8 * j.val) 8) ∧
  (∀ (b : Block) (k j : Fin 4), (wordsOf b)[k].extractLsb' (8 * j.val) 8 = b[4 * k.val + j.val]) ∧
  (∀ (key : Vector Word 8) (n : Nat) (k : Fin 8) (j : Fin 4), 4 * k.val + j.val < n →
    (bytesN key n)[4 * k.val + j.val]? = some (key[k].extractLsb' (8 * j.val) 8)) ∧
  (∀ (v : Word) (j : Fin 4), (unpackWord v)[j] = v.extractLsb' (8 * j.val) 8) ∧
  (∀ b : Block, bytes16 (wordsOf b) = b) ∧ (∀ r : Vector Word 4, wordsOf (bytes16 r) = r) ∧
  (∀ v : Word, packWord (unpackWord v) = v) ∧ (∀ b : KeyWord, unpackWord (packWord b) = b)

/-- R59: the agenda is one interleaving: as many steps as it has events run exactly those events. The agenda is the
model's own (assumption 1). -/
def Obligations.AgendaRunsAsItsEvents : Prop :=
  ∀ (es : List Event) (s : Machine.State), s.agenda = [] →
    Sys2Proof.core.run es.length { s with agenda := es } = runEvents es s

/-! ## GF(2^8) multiplier and tables -/

/-- R92: GF_MUL in every state: the product, and nothing else but BUSY; its one word, and what its opcode with any other bit
set does. -/
def Obligations.GfMulWritesTheProduct : Prop :=
  (∀ s : Machine.State, exec .gfMul s = .next { s with gfRes := multiply s.gfa s.gfb, busy := false }) ∧
  (∀ v : Word, decode v = some .gfMul ↔ v = 0x00000004#32) ∧
  (∀ s : Machine.State, s.busy = true → s.pending.extractLsb' 0 8 = 0x04#8 → s.pending ≠ 0x00000004#32 →
    engineStep s = .next (errorState .illegalCommand s)) ∧
  multiply 0x57#8 0x83#8 = 0xC1#8

/-- R35: who writes GFRES, and what a read of it returns while BUSY = 0. -/
def Obligations.OnlyGfMulAndResetWriteGfres : Prop :=
  (∀ (e : Event) (s t : Machine.State), applyEvent e s = .next t → t.gfRes ≠ s.gfRes →
    (e = .engine ∧ s.busy = true ∧ decode s.pending = some .gfMul ∧ t.gfRes = multiply s.gfa s.gfb) ∨ e = .reset) ∧
  (∀ s : Machine.State, (idleRead s 0x014).extractLsb' 0 8 = s.gfRes ∧ (idleRead s 0x014).extractLsb' 8 24 = 0#24) ∧
  (∀ (v : Word) (s : Machine.State), s.busy = false → busWrite .word 0x014 v s = .next s)

/-- R91: the laws of `multiply`. -/
def Obligations.MultiplyFieldLaws : Prop :=
  (∀ a : Byte, multiply a 0x00#8 = 0x00#8 ∧ multiply 0x00#8 a = 0x00#8 ∧
    multiply a 0x01#8 = a ∧ multiply 0x01#8 a = a) ∧
  (∀ a b : Byte, multiply a b = multiply b a) ∧
  (∀ a b c : Byte, multiply (multiply a b) c = multiply a (multiply b c)) ∧
  (∀ a b c : Byte, multiply a (b ^^^ c) = multiply a b ^^^ multiply a c) ∧
  (∀ a : Byte, a ≠ 0x00#8 → ∃ b, multiply a b = 0x01#8 ∧ ∀ b', multiply a b' = 0x01#8 → b' = b) ∧
  (∀ a b : Byte, a ≠ 0x00#8 → b ≠ 0x00#8 → multiply a b ≠ 0x00#8) ∧
  (∀ a : Byte, multiply a 0x02#8 = (a <<< 1) ^^^ (if a.getLsbD 7 then 0x1B#8 else 0x00#8)) ∧
  (∀ a : Byte, multiply a 0x03#8 = multiply a 0x02#8 ^^^ a)

/-- R96: the table of R95 is the affine map of the inverse. -/
def Obligations.SboxIsTheAffineInverse : Prop :=
  ∀ x b : Byte, (x = 0x00#8 ∧ b = 0x00#8) ∨ (x ≠ 0x00#8 ∧ multiply x b = 0x01#8) →
    sbox x = b ^^^ b.rotateLeft 1 ^^^ b.rotateLeft 2 ^^^ b.rotateLeft 3 ^^^ b.rotateLeft 4 ^^^ 0x63#8

/-- R97: the two tables are inverse. -/
def Obligations.SubstitutionTablesAreInverse : Prop :=
  (∀ x : Byte, invSbox (sbox x) = x) ∧ (∀ y : Byte, sbox (invSbox y) = y)

/-- R98: the round constants are powers of x. -/
def Obligations.RoundConstantsDouble : Prop :=
  rcon 1 = 0x01#8 ∧ ∀ j : Nat, 1 ≤ j → j < 10 → rcon (j + 1) = multiply (rcon j) 0x02#8

/-! ## Key schedule -/

/-- R102, R104: KEY_EXPAND fills W word by word, sets KEYVALID and NR, and changes nothing else but BUSY. -/
def Obligations.KeyExpandFillsTheStore : Prop :=
  ∀ (ksz : BitVec 2) (s : Machine.State), s.stream = .idle → ksz ≠ 3#2 →
    ∃ t, exec (.keyExpand ksz) s = .next t ∧
      t = { s with w := t.w, nr := t.nr, keyValid := true, busy := false } ∧
      (ksz = 0#2 → t.nr = 10#4) ∧ (ksz = 1#2 → t.nr = 12#4) ∧ (ksz = 2#2 → t.nr = 14#4) ∧
      (∀ (i : Nat) (h : i < 8), i < 4 + 2 * ksz.toNat → t.w[i] = s.key[i]) ∧
      (∀ i : Nat, 4 + 2 * ksz.toNat ≤ i → i < 4 * (t.nr.toNat + 1) →
        let nk := 4 + 2 * ksz.toNat
        let word := wordAt (storedWords t.w)
        word i = xorBytes (word (i - nk))
          (if i % nk = 0 then xorBytes (subWord (rotWord (word (i - 1)))) #v[rcon (i / nk), 0#8, 0#8, 0#8]
           else if nk = 8 ∧ i % nk = 4 then subWord (word (i - 1))
           else word (i - 1))) ∧
      (∀ (i : Nat) (h : i < 60), 4 * (t.nr.toNat + 1) ≤ i → t.w[i] = 0#32)

/-- R105: W after an expansion depends on ksz and the first 4*Nk key bytes alone, whichever command expands. -/
def Obligations.ExpansionDependsOnTheKeyAlone : Prop :=
  ∀ (ksz : BitVec 2) (s s' : Machine.State), ksz ≠ 3#2 →
    (∀ k : Fin 8, k.val < 4 + 2 * ksz.toNat → s.key[k] = s'.key[k]) →
    (expandInto ksz s).w = (expandInto ksz s').w ∧
    (s.stream = .idle → s'.stream = .idle → ∃ t t', exec (.keyExpand ksz) s = .next t ∧
      exec (.cbcEncInit ksz) s' = .next t' ∧ t.w = t'.w)

/-- R104: the errors of KEY_EXPAND, with the whole state they leave. -/
def Obligations.KeyExpandErrors : Prop :=
  ∀ (ksz : BitVec 2) (s : Machine.State),
    (s.stream ≠ .idle → exec (.keyExpand ksz) s = .next (errorState .sequence s)) ∧
    (s.stream = .idle → ksz = 3#2 → exec (.keyExpand ksz) s = .next (errorState .unsupportedKeySize s))

/-! ## Block transform -/

/-- R112: the two row rotations, entry by entry, and that they undo each other. -/
def Obligations.RowRotationsAreInverse : Prop :=
  (∀ (s : Matrix) (r c : Fin 4), (shiftRows s)[r][c] = s[r][(c.val + r.val) % 4] ∧
    (invShiftRows s)[r][c] = s[r][(c.val + 4 - r.val) % 4]) ∧
  (∀ s : Matrix, invShiftRows (shiftRows s) = s ∧ shiftRows (invShiftRows s) = s)

/-- R115: InvMixColumns, entry by entry, and that it undoes MixColumns, which the spec marks as derived from R114 and R122. -/
def Obligations.InvMixColumnsUndoesMixColumns : Prop :=
  (∀ (s : Matrix) (r c : Fin 4), (invMixColumns s)[r][c] =
    multiply 0x0e#8 s[r][c] ^^^ multiply 0x0b#8 s[(r.val + 1) % 4][c] ^^^
      multiply 0x0d#8 s[(r.val + 2) % 4][c] ^^^ multiply 0x09#8 s[(r.val + 3) % 4][c]) ∧
  (∀ s : Matrix, invMixColumns (mixColumns s) = s)

/-- R117: the order of InvShiftRows and InvSubBytes inside a round does not matter. -/
def Obligations.InverseStepsCommute : Prop :=
  ∀ s : Matrix, invSubBytes (invShiftRows s) = invShiftRows (invSubBytes s)

/-- R118: the transforms depend on the block, the round keys 0..Nr and Nr alone. -/
def Obligations.TransformsReadOnlyTheirRoundKeys : Prop :=
  ∀ (b : Block) (w w' : List KeyWord) (nr : Nat), (∀ j : Nat, j < 4 * (nr + 1) → wordAt w j = wordAt w' j) →
    cipher b w nr = cipher b w' nr ∧ invCipher b w nr = invCipher b w' nr

/-- R122: the round trip for every block, every list of round keys and every Nr; the round trip through the two commands;
the known answer. -/
def Obligations.BlockRoundTrip : Prop :=
  (∀ (b : Block) (w : List KeyWord) (nr : Nat),
    invCipher (cipher b w nr) w nr = b ∧ cipher (invCipher b w nr) w nr = b) ∧
  (∀ s : Machine.State, s.keyValid = true → ∃ t u, exec (.encBlock 16) s = .next t ∧
    exec (.decBlock 16) { t with din := t.dout, busy := true } = .next u ∧ u.dout = s.din) ∧
  (∀ s : Machine.State, s.stream = .idle →
    s.key[0] = 0x03020100#32 → s.key[1] = 0x07060504#32 → s.key[2] = 0x0B0A0908#32 → s.key[3] = 0x0F0E0D0C#32 →
    s.din = #v[0x33221100#32, 0x77665544#32, 0xBBAA9988#32, 0xFFEEDDCC#32] →
    ∃ t u, exec (.keyExpand 0#2) s = .next t ∧ exec (.encBlock 16) t = .next u ∧
      u.dout = #v[0xD8E0C469#32, 0x30047B6A#32, 0x80B7CDD8#32, 0x5AC5B470#32])

/-- R120: ENC_BLOCK with a key, in every stream state. -/
def Obligations.EncBlockWritesTheCiphertext : Prop :=
  ∀ s : Machine.State, s.keyValid = true → exec (.encBlock 16) s =
    .next { s with dout := wordsOf (cipher (bytes16 s.din) (storedWords s.w) s.nr.toNat), outLen := 16#5, busy := false }

/-- R121: DEC_BLOCK with a key, in every stream state. -/
def Obligations.DecBlockWritesThePlaintext : Prop :=
  ∀ s : Machine.State, s.keyValid = true → exec (.decBlock 16) s =
    .next { s with dout := wordsOf (invCipher (bytes16 s.din) (storedWords s.w) s.nr.toNat), outLen := 16#5, busy := false }

/-- R119, R120, R121: the errors of the two block commands, with the whole state they leave. -/
def Obligations.BlockCommandErrors : Prop :=
  ∀ (len : Nat) (s : Machine.State),
    (len ≠ 16 → exec (.encBlock len) s = .next (errorState .invalidBlockSize s) ∧
      exec (.decBlock len) s = .next (errorState .invalidBlockSize s)) ∧
    (len = 16 → s.keyValid = false → exec (.encBlock len) s = .next (errorState .noKey s) ∧
      exec (.decBlock len) s = .next (errorState .noKey s))

/-! ## CBC chainer -/

/-- R131: CBC_ENC_INIT is the expansion of KEY_EXPAND, the IV in CV and DOUT, and an open encryption stream. -/
def Obligations.EncInitOpensTheStream : Prop :=
  ∀ (ksz : BitVec 2) (s : Machine.State), s.stream = .idle → ksz ≠ 3#2 →
    ∃ t u, exec (.keyExpand ksz) s = .next t ∧ exec (.cbcEncInit ksz) s = .next u ∧
      u = { t with cv := s.iv, dout := s.iv, outLen := 16#5, stream := .enc, first := true }

/-- R134, R133, R135: CBC_ENC_CHUNK in an encryption stream: a full chunk, a final chunk with a padded block, and the empty
first chunk. -/
def Obligations.EncChunkEncryptsItsBlock : Prop :=
  ∀ (n : Nat) (s : Machine.State), s.stream = .enc →
    (n = 16 → exec (.cbcEncChunk n) s =
      .next { s with dout := wordsOf (chained s (bytes16 s.din)), cv := wordsOf (chained s (bytes16 s.din)),
                     outLen := 16#5, first := false, busy := false }) ∧
    (n < 16 → ¬(s.first = true ∧ n = 0) → ∀ p : Block,
      (∀ i : Fin 16, p[i] = if i.val < n then (bytes16 s.din)[i] else BitVec.ofNat 8 (16 - n)) →
      exec (.cbcEncChunk n) s =
        .next { closed s with dout := wordsOf (chained s p), cv := wordsOf (chained s p), outLen := 16#5, busy := false }) ∧
    (n = 0 → s.first = true → exec (.cbcEncChunk n) s = .next { closed s with outLen := 0#5, busy := false })

/-- R140: CBC_DEC_INIT: an open decryption stream, or for an empty stream its end at once. -/
def Obligations.DecInitOpensTheStream : Prop :=
  ∀ (ksz : BitVec 2) (s : Machine.State), s.stream = .idle → ksz ≠ 3#2 →
    (s.streamLen ≠ 0#32 → s.streamLen.toNat % 16 = 0 →
      ∃ t u, exec (.keyExpand ksz) s = .next t ∧ exec (.cbcDecInit ksz) s = .next u ∧
        u = { t with cv := s.iv, outLen := 0#5, stream := .dec, blkRem := s.streamLen }) ∧
    (s.streamLen = 0#32 → exec (.cbcDecInit ksz) s =
      .next { closed s with cv := s.iv, outLen := 0#5, busy := false })

/-- R141, R142, R143: CBC_DEC_BLOCK in a decryption stream: a block that is not the last, and the last one. -/
def Obligations.DecBlockOfStreamDecrypts : Prop :=
  ∀ s : Machine.State, s.stream = .dec →
    (s.blkRem ≠ 16#32 → exec (.cbcDecBlock 16) s =
      .next { s with dout := wordsOf (unchained s), cv := s.din, blkRem := s.blkRem - 16#32, outLen := 16#5, busy := false }) ∧
    (s.blkRem = 16#32 → ∃ t, exec (.cbcDecBlock 16) s = .next t ∧
      t = { closed s with dout := wordsOf (unchained s), cv := s.din, outLen := t.outLen, busy := false } ∧
      (1 ≤ (unchained s)[15].toNat ∧ (unchained s)[15].toNat ≤ 16 → t.outLen.toNat = 16 - (unchained s)[15].toNat) ∧
      ((unchained s)[15].toNat = 0 ∨ 17 ≤ (unchained s)[15].toNat → t.outLen.toNat = 16))

/-- R131, R134, R140, R141: the errors of the four CBC commands, with the whole state they leave. -/
def Obligations.CbcErrors : Prop :=
  ∀ (ksz : BitVec 2) (n : Nat) (s : Machine.State),
    (s.stream ≠ .idle → exec (.cbcEncInit ksz) s = .next (errorState .sequence s) ∧
      exec (.cbcDecInit ksz) s = .next (errorState .sequence s)) ∧
    (s.stream = .idle → ksz = 3#2 → exec (.cbcEncInit ksz) s = .next (errorState .unsupportedKeySize s) ∧
      exec (.cbcDecInit ksz) s = .next (errorState .unsupportedKeySize s)) ∧
    (s.stream = .idle → ksz ≠ 3#2 → s.streamLen.toNat % 16 ≠ 0 →
      exec (.cbcDecInit ksz) s = .next (errorState .invalidCiphertextSize s)) ∧
    (s.stream ≠ .enc → exec (.cbcEncChunk n) s = .next (errorState .sequence s)) ∧
    (s.stream = .enc → 16 < n → exec (.cbcEncChunk n) s = .next (errorState .invalidBlockSize s)) ∧
    (s.stream ≠ .dec → exec (.cbcDecBlock n) s = .next (errorState .sequence s)) ∧
    (s.stream = .dec → n ≠ 16 → exec (.cbcDecBlock n) s = .next (errorState .invalidBlockSize s))

/-- R133, R142: unpadding a padded block gives the number of source bytes, which padding left alone. -/
def Obligations.UnpadInvertsPad : Prop :=
  ∀ (d : Block) (n : Nat), n < 16 →
    unpad (pad d n) = n ∧ (pad d n).toList.take n = d.toList.take n

/-- R135, R143: a block that CBC_ENC_CHUNK emits, given to CBC_DEC_BLOCK under the same expansion and chaining value, gives
back the chunk's bytes and the same next chaining value; as the last block its OUTLEN is the chunk's length. -/
def Obligations.DecBlockUndoesEncChunk : Prop :=
  ∀ (n : Nat) (s : Machine.State), s.stream = .enc → n ≤ 16 → ¬(s.first = true ∧ n = 0) →
    ∃ t, exec (.cbcEncChunk n) s = .next t ∧
      ∀ d : Machine.State, d.stream = .dec → d.w = s.w → d.nr = s.nr → d.cv = s.cv → d.din = t.dout →
        ∃ u, exec (.cbcDecBlock 16) d = .next u ∧
          (bytes16 u.dout).toList.take n = (bytes16 s.din).toList.take n ∧ u.cv = t.cv ∧
          (d.blkRem = 16#32 → n < 16 → u.outLen.toNat = n) ∧ (d.blkRem ≠ 16#32 → u.outLen = 16#5)

/-- R151, with R136 and R144: the stream round trip for every source that STREAMLEN can count, every key and IV, from every
idle block with no open stream, whatever the number of polls and the bytes that fill DIN. The spec marks the claim for every
length as derived; the form of the host procedures is the model's choice (assumption 9). -/
def Obligations.StreamRoundTrip : Prop :=
  ∀ (polls polls' : Nat) (fill : List Byte) (ksz : BitVec 2) (key iv source : List Byte) (s s' : Machine.State),
    ksz ≠ 3#2 → key.length = 4 * (4 + 2 * ksz.toNat) → iv.length = 16 → source.length + 16 < 2 ^ 32 →
    s.busy = false → s.stream = .idle → s'.busy = false → s'.stream = .idle →
    ∃ r, encryptStream polls fill ksz key iv source s = .next r ∧ r.error = .none ∧ r.output.take 16 = iv ∧
      r.output.length = 16 + (if source.length = 0 then 0 else 16 * (source.length / 16 + 1)) ∧
      r.state.key = Vector.replicate 8 0#32 ∧ r.state.keyValid = false ∧
      ∃ r', decryptStream polls' ksz key r.output s' = .next r' ∧ r'.error = .none ∧ r'.output = source ∧
        r'.state.key = Vector.replicate 8 0#32 ∧ r'.state.keyValid = false

/-- R152, R143: in decryption the chaining value reaches its own block only: two blocks that differ in CV alone give
plaintexts that differ by just that xor, and leave the same chaining value for every later block. -/
def Obligations.ChainingValueReachesOneBlock : Prop :=
  ∀ (s : Machine.State) (x y : Vector Word 4), s.stream = .dec →
    ∃ t u, exec (.cbcDecBlock 16) { s with cv := x } = .next t ∧ exec (.cbcDecBlock 16) { s with cv := y } = .next u ∧
      xorBytes (bytes16 t.dout) (bytes16 u.dout) = xorBytes (bytes16 x) (bytes16 y) ∧ t.cv = s.din ∧ u.cv = s.din ∧
      u = { t with dout := u.dout, outLen := u.outLen }

/-- R130: which commands a stream state admits, and what becomes of the stream: which commands open it, keep it and close
it. The premises are what the issue of a command leaves (R24). -/
def Obligations.StreamStatesAdmitTheirCommands : Prop :=
  ∀ (i : Instr) (s : Machine.State), s.err = false → s.errCode = .none →
    ∃ t, exec i s = .next t ∧ (t.errCode = .sequence ↔ admits i s.stream = false) ∧
      (t.err = true → t.stream = .idle) ∧ (t.errCode = .sequence → t.err = true) ∧
      (t.err = false → t.stream = (match i with
        | .keyExpand _ => .idle
        | .encBlock _ => s.stream
        | .decBlock _ => s.stream
        | .gfMul => s.stream
        | .cbcEncInit _ => .enc
        | .cbcEncChunk n => if n < 16 then .idle else .enc
        | .cbcDecInit _ => if s.streamLen = 0#32 then .idle else .dec
        | .cbcDecBlock _ => if s.blkRem = 16#32 then .idle else .dec
        | .zeroize => .idle))

/-! ## Erasure and errors -/

/-- R161: ZEROIZE in every state; its one word, and what its opcode with any other bit set does. -/
def Obligations.ZeroizeErasesTheBlock : Prop :=
  (∀ s : Machine.State, exec .zeroize s =
    .next { closed s with iv := Vector.replicate 4 0#32, cv := Vector.replicate 4 0#32, din := Vector.replicate 4 0#32,
                          dout := Vector.replicate 4 0#32, outLen := 0#5, busy := false }) ∧
  (∀ v : Word, decode v = some .zeroize ↔ v = 0x00000009#32) ∧
  (∀ s : Machine.State, s.busy = true → s.pending.extractLsb' 0 8 = 0x09#8 → s.pending ≠ 0x00000009#32 →
    engineStep s = .next (errorState .illegalCommand s))

/-- R162: nothing of the key survives an error or ZEROIZE: two runs that differ in KEY and W alone end in the same state. -/
def Obligations.ErasureLeavesNoTraceOfTheKey : Prop :=
  ∀ (i : Instr) (s t : Machine.State) (key : Vector Word 8) (w : Vector Word 60), s.err = false →
    exec i s = .next t → (t.err = true ∨ i = .zeroize) → exec i { s with key := key, w := w } = .next t

/-- R172: which error a word reports when several apply. The premises are what the issue of a command leaves (R24). -/
def Obligations.FirstErrorIsReported : Prop :=
  ∀ s : Machine.State, s.busy = true → s.err = false → s.errCode = .none → ∃ t, engineStep s = .next t ∧
    t.errCode = (match decode s.pending with | none => .illegalCommand | some i => firstError i s) ∧
    (t.err = true ↔ t.errCode ≠ .none)

/-- R173, R170: a command, or an illegal word, that ends in an error changes the state of R170 and nothing else. -/
def Obligations.ErrorsArePrecise : Prop :=
  (∀ (i : Instr) (s t : Machine.State), s.err = false → exec i s = .next t → t.err = true →
    t = errorState t.errCode s) ∧
  (∀ s t : Machine.State, s.busy = true → s.err = false → engineStep s = .next t → t.err = true →
    t = errorState t.errCode s)

/-- R28: only an issue, a completion and a reset write ERR and ERRCODE; an issue clears them, and a completion leaves them or
is the error completion of its code. -/
def Obligations.ErrorFlagsHoldUntilTheNextIssue : Prop :=
  (∀ (e : Event) (s t : Machine.State), applyEvent e s = .next t → (t.err ≠ s.err ∨ t.errCode ≠ s.errCode) →
    (e = .engine ∧ s.busy = true) ∨ e = .reset ∨
    (∃ v, e = .busWrite .word 0x004 v ∧ s.busy = false ∧ t.err = false ∧ t.errCode = .none)) ∧
  (∀ (v : Word) (s : Machine.State), s.busy = false →
    ∃ t, busWrite .word 0x004 v s = .next t ∧ t.err = false ∧ t.errCode = .none) ∧
  (∀ s : Machine.State, s.busy = true → ∃ t, engineStep s = .next t ∧
    ((t.err = s.err ∧ t.errCode = s.errCode) ∨ (∃ code, code ≠ .none ∧ t = errorState code s)))

/-- R27, R43, R160: an expansion in W comes from an expansion command's key alone and goes with a wipe alone, which also
erases KEY; no other event writes KEYVALID, NR or W. -/
def Obligations.OnlyExpansionsAndWipesWriteTheStore : Prop :=
  ∀ (e : Event) (s t : Machine.State), applyEvent e s = .next t →
    (t.keyValid = s.keyValid ∧ t.nr = s.nr ∧ t.w = s.w) ∨
    ((e = .reset ∨ (e = .engine ∧ s.busy = true)) ∧ t.keyValid = false ∧ t.nr = 0#4 ∧
      t.w = Vector.replicate 60 0#32 ∧ t.key = Vector.replicate 8 0#32) ∨
    (e = .engine ∧ s.busy = true ∧ ∃ ksz : BitVec 2, ksz ≠ 3#2 ∧
      (decode s.pending = some (.keyExpand ksz) ∨ decode s.pending = some (.cbcEncInit ksz) ∨
        decode s.pending = some (.cbcDecInit ksz)) ∧
      t.keyValid = true ∧ t.nr.toNat = 10 + 2 * ksz.toNat ∧ t.w = expandedStore ksz s.key ∧ t.key = s.key)

/-- R36, R39, R41, R34, R24, R35: what no command writes, and the one command that writes the rest. That PENDING stays is read
from R45 and R21 by inference (DEDUCED, assumption 6). -/
def Obligations.CommandsKeepTheHostsRegisters : Prop :=
  ∀ (i : Instr) (s t : Machine.State), exec i s = .next t →
    t.streamLen = s.streamLen ∧ t.gfa = s.gfa ∧ t.gfb = s.gfb ∧ t.lastCmd = s.lastCmd ∧ t.pending = s.pending ∧
    t.agenda = s.agenda ∧ t.readData = s.readData ∧ t.draws = s.draws ∧
    (i ≠ .zeroize → t.iv = s.iv ∧ t.din = s.din) ∧ (i ≠ .gfMul → t.gfRes = s.gfRes) ∧
    (t.key = s.key ∨ t.key = Vector.replicate 8 0#32)

/-- R25, R27, R33, R37, R40, R42: a host access writes none of the engine's registers. -/
def Obligations.HostAccessesKeepTheEnginesRegisters : Prop :=
  ∀ (s t : Machine.State) (e : Event) (rest : List Event), s.agenda = e :: rest →
    (∃ width off, e = .busRead width off) ∨ (∃ width off v, e = .busWrite width off v) → step s = .next t →
    t.keyValid = s.keyValid ∧ t.nr = s.nr ∧ t.w = s.w ∧ t.stream = s.stream ∧ t.first = s.first ∧
    t.outLen = s.outLen ∧ t.blkRem = s.blkRem ∧ t.cv = s.cv ∧ t.dout = s.dout ∧ t.gfRes = s.gfRes

/-! ## The whole machine -/

/-- The invariant of Safety.lean holds at reset. -/
def Obligations.ResetMeetsTheInvariant : Prop := State.reset.Inv

/-- R27, R29, R30, R33, R37, R174: every step of every agent keeps the invariant. -/
def Obligations.EveryStepKeepsTheInvariant : Prop :=
  ∀ s t : Machine.State, s.Inv → step s = .next t → t.Inv

/-- R51, R53, R195: a run never stops exactly when its host conforms. That a command in flight is told from the writes to
CMD, the engine's turns and the resets alone rests on R24 and R26; the agenda is the model's own (assumption 1). -/
def Obligations.RunsAreSafeExactlyWhenTheHostConforms : Prop :=
  ∀ s : Machine.State, s.RunsSafely ↔ conforming s.busy s.agenda = true

/-- R200: an issued command is eventually completed. R200 sets no bound: that it takes one step once the agenda is empty is
the model's choice (assumption 1). -/
def Obligations.ConformingRunsEndIdle : Prop :=
  ∀ s : Machine.State, conforming s.busy s.agenda = true →
    ∃ t, Sys2Proof.core.run (s.agenda.length + 1) s = .next t ∧ t.busy = false ∧ t.agenda = []
end

