-- ==== Sys2Proof/Laws/Bytes.lean ====
section
/-! SUPPORT. What each byte of a sequence, a matrix or a register group is: one lemma per constructor function, so that
later proofs go byte by byte and unfold none of them. -/

namespace Sys2Proof

@[simp] theorem xorBytes_getElem {n : Nat} (a b : Vector Byte n) (i : Nat) (h : i < n) :
    (xorBytes a b)[i] = a[i] ^^^ b[i] := by
  simp [xorBytes]

theorem xorBytes_xorBytes_cancel {n : Nat} (a b : Vector Byte n) : xorBytes (xorBytes a b) b = a := by
  ext i h; simp

theorem xorBytes_comm {n : Nat} (a b : Vector Byte n) : xorBytes a b = xorBytes b a := by
  ext i h; simp [BitVec.xor_comm]

namespace Machine

@[simp] theorem matrixOf_getElem (f : Fin 4 → Fin 4 → Byte) (r c : Nat) (hr : r < 4) (hc : c < 4) :
    (matrixOf f)[r][c] = f ⟨r, hr⟩ ⟨c, hc⟩ := by
  simp [matrixOf]

/-- Two matrices are equal when their entries are. -/
theorem matrix_ext {s t : Matrix} (h : ∀ r c : Fin 4, s[r][c] = t[r][c]) : s = t := by
  refine Vector.ext fun r hr => Vector.ext fun c hc => ?_
  exact h ⟨r, hr⟩ ⟨c, hc⟩

theorem storeBlock_loadBlock (b : Block) : storeBlock (loadBlock b) = b := by
  ext i h
  have : 4 * (i / 4) + i % 4 = i := by omega
  simp [storeBlock, loadBlock, this]

theorem loadBlock_storeBlock (s : Matrix) : loadBlock (storeBlock s) = s := by
  refine matrix_ext fun r c => ?_
  have h1 : r.val % 4 = r.val := by omega
  have h2 : (4 * c.val + r.val) / 4 = c.val := by omega
  simp [storeBlock, loadBlock, h1, h2]

@[simp] theorem bytes16_getElem (r : Vector Word 4) (i : Nat) (h : i < 16) :
    (bytes16 r)[i] = laneByte r[i / 4] (i % 4) := by
  simp [bytes16]

@[simp] theorem pad_getElem (d : Block) (n i : Nat) (h : i < 16) :
    (pad d n)[i] = if i < n then d[i] else BitVec.ofNat 8 (16 - n) := by
  simp [pad]

/-- R113: word `i` of the W store as the transforms read it. -/
theorem wordAt_storedWords (w : Vector Word 60) (i : Nat) (h : i < 60) :
    wordAt (storedWords w) i = unpackWord w[i] := by
  simp [wordAt, storedWords, List.getD, h]

/-- R95, R97: both indices of a table are below 16, the number of its rows and of each row's entries. -/
theorem tableAt_in_range (x : Byte) :
    (x.extractLsb' 4 4).toNat < 16 ∧ (x.extractLsb' 0 4).toNat < 16 ∧
      sboxRows.length = 16 ∧ invSboxRows.length = 16 ∧
      (∀ row ∈ sboxRows, row.length = 16) ∧ (∀ row ∈ invSboxRows, row.length = 16) :=
  ⟨BitVec.isLt _, BitVec.isLt _, by decide, by decide, by decide, by decide⟩

end Machine

end Sys2Proof
end

