-- ==== Sys2Proof/Laws/State.lean ====
section
/-! SUPPORT. One lemma per field for each shared update of the state, so that no later proof unfolds a record update. -/

namespace Sys2Proof.Machine

@[simp] theorem issue_lastCmd (v : Word) (s : State) : (issue v s).lastCmd = v := rfl
@[simp] theorem issue_pending (v : Word) (s : State) : (issue v s).pending = v := rfl
@[simp] theorem issue_busy (v : Word) (s : State) : (issue v s).busy = true := rfl
@[simp] theorem issue_keyValid (v : Word) (s : State) : (issue v s).keyValid = s.keyValid := rfl
@[simp] theorem issue_err (v : Word) (s : State) : (issue v s).err = false := rfl
@[simp] theorem issue_first (v : Word) (s : State) : (issue v s).first = s.first := rfl
@[simp] theorem issue_stream (v : Word) (s : State) : (issue v s).stream = s.stream := rfl
@[simp] theorem issue_errCode (v : Word) (s : State) : (issue v s).errCode = .none := rfl
@[simp] theorem issue_nr (v : Word) (s : State) : (issue v s).nr = s.nr := rfl
@[simp] theorem issue_outLen (v : Word) (s : State) : (issue v s).outLen = s.outLen := rfl
@[simp] theorem issue_gfa (v : Word) (s : State) : (issue v s).gfa = s.gfa := rfl
@[simp] theorem issue_gfb (v : Word) (s : State) : (issue v s).gfb = s.gfb := rfl
@[simp] theorem issue_gfRes (v : Word) (s : State) : (issue v s).gfRes = s.gfRes := rfl
@[simp] theorem issue_streamLen (v : Word) (s : State) : (issue v s).streamLen = s.streamLen := rfl
@[simp] theorem issue_blkRem (v : Word) (s : State) : (issue v s).blkRem = s.blkRem := rfl
@[simp] theorem issue_key (v : Word) (s : State) : (issue v s).key = s.key := rfl
@[simp] theorem issue_iv (v : Word) (s : State) : (issue v s).iv = s.iv := rfl
@[simp] theorem issue_cv (v : Word) (s : State) : (issue v s).cv = s.cv := rfl
@[simp] theorem issue_din (v : Word) (s : State) : (issue v s).din = s.din := rfl
@[simp] theorem issue_dout (v : Word) (s : State) : (issue v s).dout = s.dout := rfl
@[simp] theorem issue_w (v : Word) (s : State) : (issue v s).w = s.w := rfl
@[simp] theorem issue_agenda (v : Word) (s : State) : (issue v s).agenda = s.agenda := rfl
@[simp] theorem issue_readData (v : Word) (s : State) : (issue v s).readData = s.readData := rfl
@[simp] theorem issue_draws (v : Word) (s : State) : (issue v s).draws = s.draws := rfl

@[simp] theorem complete_lastCmd (s : State) : (complete s).lastCmd = s.lastCmd := rfl
@[simp] theorem complete_pending (s : State) : (complete s).pending = s.pending := rfl
@[simp] theorem complete_busy (s : State) : (complete s).busy = false := rfl
@[simp] theorem complete_keyValid (s : State) : (complete s).keyValid = s.keyValid := rfl
@[simp] theorem complete_err (s : State) : (complete s).err = s.err := rfl
@[simp] theorem complete_first (s : State) : (complete s).first = s.first := rfl
@[simp] theorem complete_stream (s : State) : (complete s).stream = s.stream := rfl
@[simp] theorem complete_errCode (s : State) : (complete s).errCode = s.errCode := rfl
@[simp] theorem complete_nr (s : State) : (complete s).nr = s.nr := rfl
@[simp] theorem complete_outLen (s : State) : (complete s).outLen = s.outLen := rfl
@[simp] theorem complete_gfa (s : State) : (complete s).gfa = s.gfa := rfl
@[simp] theorem complete_gfb (s : State) : (complete s).gfb = s.gfb := rfl
@[simp] theorem complete_gfRes (s : State) : (complete s).gfRes = s.gfRes := rfl
@[simp] theorem complete_streamLen (s : State) : (complete s).streamLen = s.streamLen := rfl
@[simp] theorem complete_blkRem (s : State) : (complete s).blkRem = s.blkRem := rfl
@[simp] theorem complete_key (s : State) : (complete s).key = s.key := rfl
@[simp] theorem complete_iv (s : State) : (complete s).iv = s.iv := rfl
@[simp] theorem complete_cv (s : State) : (complete s).cv = s.cv := rfl
@[simp] theorem complete_din (s : State) : (complete s).din = s.din := rfl
@[simp] theorem complete_dout (s : State) : (complete s).dout = s.dout := rfl
@[simp] theorem complete_w (s : State) : (complete s).w = s.w := rfl
@[simp] theorem complete_agenda (s : State) : (complete s).agenda = s.agenda := rfl
@[simp] theorem complete_readData (s : State) : (complete s).readData = s.readData := rfl
@[simp] theorem complete_draws (s : State) : (complete s).draws = s.draws := rfl

@[simp] theorem wipe_lastCmd (s : State) : (wipe s).lastCmd = s.lastCmd := rfl
@[simp] theorem wipe_pending (s : State) : (wipe s).pending = s.pending := rfl
@[simp] theorem wipe_busy (s : State) : (wipe s).busy = s.busy := rfl
@[simp] theorem wipe_keyValid (s : State) : (wipe s).keyValid = false := rfl
@[simp] theorem wipe_err (s : State) : (wipe s).err = s.err := rfl
@[simp] theorem wipe_first (s : State) : (wipe s).first = s.first := rfl
@[simp] theorem wipe_stream (s : State) : (wipe s).stream = s.stream := rfl
@[simp] theorem wipe_errCode (s : State) : (wipe s).errCode = s.errCode := rfl
@[simp] theorem wipe_nr (s : State) : (wipe s).nr = 0#4 := rfl
@[simp] theorem wipe_outLen (s : State) : (wipe s).outLen = s.outLen := rfl
@[simp] theorem wipe_gfa (s : State) : (wipe s).gfa = s.gfa := rfl
@[simp] theorem wipe_gfb (s : State) : (wipe s).gfb = s.gfb := rfl
@[simp] theorem wipe_gfRes (s : State) : (wipe s).gfRes = s.gfRes := rfl
@[simp] theorem wipe_streamLen (s : State) : (wipe s).streamLen = s.streamLen := rfl
@[simp] theorem wipe_blkRem (s : State) : (wipe s).blkRem = s.blkRem := rfl
@[simp] theorem wipe_key (s : State) : (wipe s).key = Vector.replicate 8 0#32 := rfl
@[simp] theorem wipe_iv (s : State) : (wipe s).iv = s.iv := rfl
@[simp] theorem wipe_cv (s : State) : (wipe s).cv = s.cv := rfl
@[simp] theorem wipe_din (s : State) : (wipe s).din = s.din := rfl
@[simp] theorem wipe_dout (s : State) : (wipe s).dout = s.dout := rfl
@[simp] theorem wipe_w (s : State) : (wipe s).w = Vector.replicate 60 0#32 := rfl
@[simp] theorem wipe_agenda (s : State) : (wipe s).agenda = s.agenda := rfl
@[simp] theorem wipe_readData (s : State) : (wipe s).readData = s.readData := rfl
@[simp] theorem wipe_draws (s : State) : (wipe s).draws = s.draws := rfl

@[simp] theorem endOfStream_lastCmd (s : State) : (endOfStream s).lastCmd = s.lastCmd := rfl
@[simp] theorem endOfStream_pending (s : State) : (endOfStream s).pending = s.pending := rfl
@[simp] theorem endOfStream_busy (s : State) : (endOfStream s).busy = s.busy := rfl
@[simp] theorem endOfStream_keyValid (s : State) : (endOfStream s).keyValid = false := rfl
@[simp] theorem endOfStream_err (s : State) : (endOfStream s).err = s.err := rfl
@[simp] theorem endOfStream_first (s : State) : (endOfStream s).first = false := rfl
@[simp] theorem endOfStream_stream (s : State) : (endOfStream s).stream = .idle := rfl
@[simp] theorem endOfStream_errCode (s : State) : (endOfStream s).errCode = s.errCode := rfl
@[simp] theorem endOfStream_nr (s : State) : (endOfStream s).nr = 0#4 := rfl
@[simp] theorem endOfStream_outLen (s : State) : (endOfStream s).outLen = s.outLen := rfl
@[simp] theorem endOfStream_gfa (s : State) : (endOfStream s).gfa = s.gfa := rfl
@[simp] theorem endOfStream_gfb (s : State) : (endOfStream s).gfb = s.gfb := rfl
@[simp] theorem endOfStream_gfRes (s : State) : (endOfStream s).gfRes = s.gfRes := rfl
@[simp] theorem endOfStream_streamLen (s : State) : (endOfStream s).streamLen = s.streamLen := rfl
@[simp] theorem endOfStream_blkRem (s : State) : (endOfStream s).blkRem = 0#32 := rfl
@[simp] theorem endOfStream_key (s : State) : (endOfStream s).key = Vector.replicate 8 0#32 := rfl
@[simp] theorem endOfStream_iv (s : State) : (endOfStream s).iv = s.iv := rfl
@[simp] theorem endOfStream_cv (s : State) : (endOfStream s).cv = s.cv := rfl
@[simp] theorem endOfStream_din (s : State) : (endOfStream s).din = s.din := rfl
@[simp] theorem endOfStream_dout (s : State) : (endOfStream s).dout = s.dout := rfl
@[simp] theorem endOfStream_w (s : State) : (endOfStream s).w = Vector.replicate 60 0#32 := rfl
@[simp] theorem endOfStream_agenda (s : State) : (endOfStream s).agenda = s.agenda := rfl
@[simp] theorem endOfStream_readData (s : State) : (endOfStream s).readData = s.readData := rfl
@[simp] theorem endOfStream_draws (s : State) : (endOfStream s).draws = s.draws := rfl

@[simp] theorem errorCompletion_lastCmd (code : ErrCode) (s : State) : (errorCompletion code s).lastCmd = s.lastCmd := rfl
@[simp] theorem errorCompletion_pending (code : ErrCode) (s : State) : (errorCompletion code s).pending = s.pending := rfl
@[simp] theorem errorCompletion_busy (code : ErrCode) (s : State) : (errorCompletion code s).busy = false := rfl
@[simp] theorem errorCompletion_keyValid (code : ErrCode) (s : State) : (errorCompletion code s).keyValid = false := rfl
@[simp] theorem errorCompletion_err (code : ErrCode) (s : State) : (errorCompletion code s).err = true := rfl
@[simp] theorem errorCompletion_first (code : ErrCode) (s : State) : (errorCompletion code s).first = false := rfl
@[simp] theorem errorCompletion_stream (code : ErrCode) (s : State) : (errorCompletion code s).stream = .idle := rfl
@[simp] theorem errorCompletion_errCode (code : ErrCode) (s : State) : (errorCompletion code s).errCode = code := rfl
@[simp] theorem errorCompletion_nr (code : ErrCode) (s : State) : (errorCompletion code s).nr = 0#4 := rfl
@[simp] theorem errorCompletion_outLen (code : ErrCode) (s : State) : (errorCompletion code s).outLen = 0#5 := rfl
@[simp] theorem errorCompletion_gfa (code : ErrCode) (s : State) : (errorCompletion code s).gfa = s.gfa := rfl
@[simp] theorem errorCompletion_gfb (code : ErrCode) (s : State) : (errorCompletion code s).gfb = s.gfb := rfl
@[simp] theorem errorCompletion_gfRes (code : ErrCode) (s : State) : (errorCompletion code s).gfRes = s.gfRes := rfl
@[simp] theorem errorCompletion_streamLen (code : ErrCode) (s : State) : (errorCompletion code s).streamLen = s.streamLen := rfl
@[simp] theorem errorCompletion_blkRem (code : ErrCode) (s : State) : (errorCompletion code s).blkRem = 0#32 := rfl
@[simp] theorem errorCompletion_key (code : ErrCode) (s : State) : (errorCompletion code s).key = Vector.replicate 8 0#32 := rfl
@[simp] theorem errorCompletion_iv (code : ErrCode) (s : State) : (errorCompletion code s).iv = s.iv := rfl
@[simp] theorem errorCompletion_cv (code : ErrCode) (s : State) : (errorCompletion code s).cv = s.cv := rfl
@[simp] theorem errorCompletion_din (code : ErrCode) (s : State) : (errorCompletion code s).din = s.din := rfl
@[simp] theorem errorCompletion_dout (code : ErrCode) (s : State) : (errorCompletion code s).dout = s.dout := rfl
@[simp] theorem errorCompletion_w (code : ErrCode) (s : State) : (errorCompletion code s).w = Vector.replicate 60 0#32 := rfl
@[simp] theorem errorCompletion_agenda (code : ErrCode) (s : State) : (errorCompletion code s).agenda = s.agenda := rfl
@[simp] theorem errorCompletion_readData (code : ErrCode) (s : State) : (errorCompletion code s).readData = s.readData := rfl
@[simp] theorem errorCompletion_draws (code : ErrCode) (s : State) : (errorCompletion code s).draws = s.draws := rfl

@[simp] theorem expandInto_lastCmd (ksz : BitVec 2) (s : State) : (expandInto ksz s).lastCmd = s.lastCmd := rfl
@[simp] theorem expandInto_pending (ksz : BitVec 2) (s : State) : (expandInto ksz s).pending = s.pending := rfl
@[simp] theorem expandInto_busy (ksz : BitVec 2) (s : State) : (expandInto ksz s).busy = s.busy := rfl
@[simp] theorem expandInto_keyValid (ksz : BitVec 2) (s : State) : (expandInto ksz s).keyValid = true := rfl
@[simp] theorem expandInto_err (ksz : BitVec 2) (s : State) : (expandInto ksz s).err = s.err := rfl
@[simp] theorem expandInto_first (ksz : BitVec 2) (s : State) : (expandInto ksz s).first = s.first := rfl
@[simp] theorem expandInto_stream (ksz : BitVec 2) (s : State) : (expandInto ksz s).stream = s.stream := rfl
@[simp] theorem expandInto_errCode (ksz : BitVec 2) (s : State) : (expandInto ksz s).errCode = s.errCode := rfl
@[simp] theorem expandInto_nr (ksz : BitVec 2) (s : State) : (expandInto ksz s).nr = BitVec.ofNat 4 (nrOf (nkOf ksz)) := rfl
@[simp] theorem expandInto_outLen (ksz : BitVec 2) (s : State) : (expandInto ksz s).outLen = s.outLen := rfl
@[simp] theorem expandInto_gfa (ksz : BitVec 2) (s : State) : (expandInto ksz s).gfa = s.gfa := rfl
@[simp] theorem expandInto_gfb (ksz : BitVec 2) (s : State) : (expandInto ksz s).gfb = s.gfb := rfl
@[simp] theorem expandInto_gfRes (ksz : BitVec 2) (s : State) : (expandInto ksz s).gfRes = s.gfRes := rfl
@[simp] theorem expandInto_streamLen (ksz : BitVec 2) (s : State) : (expandInto ksz s).streamLen = s.streamLen := rfl
@[simp] theorem expandInto_blkRem (ksz : BitVec 2) (s : State) : (expandInto ksz s).blkRem = s.blkRem := rfl
@[simp] theorem expandInto_key (ksz : BitVec 2) (s : State) : (expandInto ksz s).key = s.key := rfl
@[simp] theorem expandInto_iv (ksz : BitVec 2) (s : State) : (expandInto ksz s).iv = s.iv := rfl
@[simp] theorem expandInto_cv (ksz : BitVec 2) (s : State) : (expandInto ksz s).cv = s.cv := rfl
@[simp] theorem expandInto_din (ksz : BitVec 2) (s : State) : (expandInto ksz s).din = s.din := rfl
@[simp] theorem expandInto_dout (ksz : BitVec 2) (s : State) : (expandInto ksz s).dout = s.dout := rfl
@[simp] theorem expandInto_w (ksz : BitVec 2) (s : State) : (expandInto ksz s).w = expandedStore ksz s.key := rfl
@[simp] theorem expandInto_agenda (ksz : BitVec 2) (s : State) : (expandInto ksz s).agenda = s.agenda := rfl
@[simp] theorem expandInto_readData (ksz : BitVec 2) (s : State) : (expandInto ksz s).readData = s.readData := rfl
@[simp] theorem expandInto_draws (ksz : BitVec 2) (s : State) : (expandInto ksz s).draws = s.draws := rfl

@[simp] theorem platformReset_lastCmd (s : State) : (platformReset s).lastCmd = State.reset.lastCmd := rfl
@[simp] theorem platformReset_pending (s : State) : (platformReset s).pending = State.reset.pending := rfl
@[simp] theorem platformReset_busy (s : State) : (platformReset s).busy = State.reset.busy := rfl
@[simp] theorem platformReset_keyValid (s : State) : (platformReset s).keyValid = State.reset.keyValid := rfl
@[simp] theorem platformReset_err (s : State) : (platformReset s).err = State.reset.err := rfl
@[simp] theorem platformReset_first (s : State) : (platformReset s).first = State.reset.first := rfl
@[simp] theorem platformReset_stream (s : State) : (platformReset s).stream = State.reset.stream := rfl
@[simp] theorem platformReset_errCode (s : State) : (platformReset s).errCode = State.reset.errCode := rfl
@[simp] theorem platformReset_nr (s : State) : (platformReset s).nr = State.reset.nr := rfl
@[simp] theorem platformReset_outLen (s : State) : (platformReset s).outLen = State.reset.outLen := rfl
@[simp] theorem platformReset_gfa (s : State) : (platformReset s).gfa = State.reset.gfa := rfl
@[simp] theorem platformReset_gfb (s : State) : (platformReset s).gfb = State.reset.gfb := rfl
@[simp] theorem platformReset_gfRes (s : State) : (platformReset s).gfRes = State.reset.gfRes := rfl
@[simp] theorem platformReset_streamLen (s : State) : (platformReset s).streamLen = State.reset.streamLen := rfl
@[simp] theorem platformReset_blkRem (s : State) : (platformReset s).blkRem = State.reset.blkRem := rfl
@[simp] theorem platformReset_key (s : State) : (platformReset s).key = State.reset.key := rfl
@[simp] theorem platformReset_iv (s : State) : (platformReset s).iv = State.reset.iv := rfl
@[simp] theorem platformReset_cv (s : State) : (platformReset s).cv = State.reset.cv := rfl
@[simp] theorem platformReset_din (s : State) : (platformReset s).din = State.reset.din := rfl
@[simp] theorem platformReset_dout (s : State) : (platformReset s).dout = State.reset.dout := rfl
@[simp] theorem platformReset_w (s : State) : (platformReset s).w = State.reset.w := rfl
@[simp] theorem platformReset_agenda (s : State) : (platformReset s).agenda = s.agenda := rfl
@[simp] theorem platformReset_readData (s : State) : (platformReset s).readData = s.readData := rfl
@[simp] theorem platformReset_draws (s : State) : (platformReset s).draws = s.draws := rfl

@[simp] theorem issueNext_lastCmd (v : Word) (s : State) : (issueNext v s).lastCmd = v := rfl
@[simp] theorem issueNext_pending (v : Word) (s : State) : (issueNext v s).pending = v := rfl
@[simp] theorem issueNext_busy (v : Word) (s : State) : (issueNext v s).busy = true := rfl
@[simp] theorem issueNext_keyValid (v : Word) (s : State) : (issueNext v s).keyValid = s.keyValid := rfl
@[simp] theorem issueNext_err (v : Word) (s : State) : (issueNext v s).err = false := rfl
@[simp] theorem issueNext_first (v : Word) (s : State) : (issueNext v s).first = s.first := rfl
@[simp] theorem issueNext_stream (v : Word) (s : State) : (issueNext v s).stream = s.stream := rfl
@[simp] theorem issueNext_errCode (v : Word) (s : State) : (issueNext v s).errCode = .none := rfl
@[simp] theorem issueNext_nr (v : Word) (s : State) : (issueNext v s).nr = s.nr := rfl
@[simp] theorem issueNext_outLen (v : Word) (s : State) : (issueNext v s).outLen = s.outLen := rfl
@[simp] theorem issueNext_gfa (v : Word) (s : State) : (issueNext v s).gfa = s.gfa := rfl
@[simp] theorem issueNext_gfb (v : Word) (s : State) : (issueNext v s).gfb = s.gfb := rfl
@[simp] theorem issueNext_gfRes (v : Word) (s : State) : (issueNext v s).gfRes = s.gfRes := rfl
@[simp] theorem issueNext_streamLen (v : Word) (s : State) : (issueNext v s).streamLen = s.streamLen := rfl
@[simp] theorem issueNext_blkRem (v : Word) (s : State) : (issueNext v s).blkRem = s.blkRem := rfl
@[simp] theorem issueNext_key (v : Word) (s : State) : (issueNext v s).key = s.key := rfl
@[simp] theorem issueNext_iv (v : Word) (s : State) : (issueNext v s).iv = s.iv := rfl
@[simp] theorem issueNext_cv (v : Word) (s : State) : (issueNext v s).cv = s.cv := rfl
@[simp] theorem issueNext_din (v : Word) (s : State) : (issueNext v s).din = s.din := rfl
@[simp] theorem issueNext_dout (v : Word) (s : State) : (issueNext v s).dout = s.dout := rfl
@[simp] theorem issueNext_w (v : Word) (s : State) : (issueNext v s).w = s.w := rfl
@[simp] theorem issueNext_agenda (v : Word) (s : State) : (issueNext v s).agenda = .engine :: s.agenda := rfl
@[simp] theorem issueNext_readData (v : Word) (s : State) : (issueNext v s).readData = s.readData := rfl
@[simp] theorem issueNext_draws (v : Word) (s : State) : (issueNext v s).draws = s.draws := rfl

end Sys2Proof.Machine
end

