-- ==== Sys2Proof/Laws/Ops.lean ====
section
/-! SUPPORT. One lemma per shared operation that says everything it can do; proofs cite these and unfold none of them. -/

namespace Sys2Proof.Machine

/-- The bus checks answer a refusal, a fault or the access, by the offset and the width alone. -/
theorem guardAccess_cases (width : AccessWidth) (off : Nat) (access : Host.Outcome State Fault Refusal) :
    (0x200 ≤ off ∧ guardAccess width off access = .refused .outsideWindow) ∨
    (off < 0x200 ∧ (width ≠ .word ∨ off % 4 ≠ 0) ∧ guardAccess width off access = .fault .busAccess) ∨
    (off < 0x200 ∧ width = .word ∧ off % 4 = 0 ∧ guardAccess width off access = access) := by
  unfold guardAccess Config.windowBytes
  by_cases h : 0x200 ≤ off
  · exact .inl ⟨h, if_pos h⟩
  · rw [if_neg h]
    by_cases h' : width ≠ .word ∨ off % 4 ≠ 0
    · exact .inr (.inl ⟨by omega, h', if_pos h'⟩)
    · refine .inr (.inr ⟨by omega, ?_, ?_, if_neg h'⟩) <;> simp_all

/-- A read the block accepts changes the host's read data and the count of draws, and nothing else. -/
theorem readAt_eq (off : Nat) (s : State) :
    readAt off s = { s with readData := (readAt off s).readData, draws := (readAt off s).draws } := by
  unfold readAt busyRead
  split
  · split <;> rfl
  · rfl

/-- A bus read that answers is a good access. -/
theorem busRead_next {width : AccessWidth} {off : Nat} {s t : State} (h : busRead width off s = .next t) :
    off < 0x200 ∧ width = .word ∧ off % 4 = 0 ∧ t = readAt off s := by
  rcases guardAccess_cases width off (.next (readAt off s)) with ⟨-, e⟩ | ⟨-, -, e⟩ | ⟨h1, h2, h3, e⟩ <;>
    rw [busRead, e] at h <;> cases h
  exact ⟨h1, h2, h3, rfl⟩

/-- A bus write that answers is a good access that found BUSY = 0. -/
theorem busWrite_next {width : AccessWidth} {off : Nat} {v : Word} {s t : State} (h : busWrite width off v s = .next t) :
    off < 0x200 ∧ width = .word ∧ off % 4 = 0 ∧ s.busy = false ∧ t = idleWrite off v s := by
  rcases guardAccess_cases width off (writeAt off v s) with ⟨-, e⟩ | ⟨-, -, e⟩ | ⟨h1, h2, h3, e⟩ <;>
    rw [busWrite, e] at h
  · cases h
  · cases h
  · unfold writeAt at h
    split at h <;> cases h
    exact ⟨h1, h2, h3, by simpa using ‹¬s.busy = true›, rfl⟩

/-- An idle write to an offset that is no register changes nothing; to a register it is that register's write. -/
theorem idleWrite_cases (off : Nat) (v : Word) (s : State) :
    (∃ r, Reg.ofOffset off = some r ∧ idleWrite off v s = writeReg v s r) ∨
      (Reg.ofOffset off = none ∧ idleWrite off v s = s) := by
  unfold idleWrite
  cases h : Reg.ofOffset off with
  | none => exact .inr ⟨rfl, rfl⟩
  | some r => exact .inl ⟨r, rfl, rfl⟩

/-- Every register is in the list of the map. -/
theorem Reg.mem_all (r : Reg) : r ∈ Reg.all := by
  cases r <;> simp [Reg.all]

/-- The register found at an offset has that offset. -/
theorem Reg.offset_of_found {off : Nat} {r : Reg} (h : Reg.ofOffset off = some r) : r.offset = off := by
  simpa using List.find?_some h

/-- What the error completion leaves: the fields of R170 and no other (R173). -/
theorem errorCompletion_eq (code : ErrCode) (s : State) :
    errorCompletion code s =
      { s with err := true, errCode := code, key := Vector.replicate 8 0#32, w := Vector.replicate 60 0#32,
               keyValid := false, nr := 0#4, stream := .idle, first := false, blkRem := 0#32, outLen := 0#5,
               busy := false } := rfl

/-- R170: an error completion forgets an expansion made earlier in the same command. -/
@[simp] theorem errorCompletion_expandInto (code : ErrCode) (ksz : BitVec 2) (s : State) :
    errorCompletion code (expandInto ksz s) = errorCompletion code s := rfl

/-- One step, by the agenda's head. -/
theorem step_nil {s : State} (h : s.agenda = []) : step s = engineStep s := by
  unfold step; rw [h]

theorem step_cons {s : State} {e : Event} {rest : List Event} (h : s.agenda = e :: rest) :
    step s = applyEvent e { s with agenda := rest } := by
  unfold step; rw [h]

/-- A run of `k + 1` steps is a step and then a run of `k`. -/
theorem run_of_step_next {s t : State} (k : Nat) (h : step s = .next t) :
    Sys2Proof.core.run (k + 1) s = Sys2Proof.core.run k t := by
  have h' : Sys2Proof.core.step s = .next t := h
  simp only [Host.Core.run, h']

theorem run_of_step_fault {s : State} {r : Fault} (k : Nat) (h : step s = .fault r) :
    Sys2Proof.core.run (k + 1) s = .fault r := by
  have h' : Sys2Proof.core.step s = .fault r := h
  simp only [Host.Core.run, h']

theorem run_of_step_refused {s : State} {r : Refusal} (k : Nat) (h : step s = .refused r) :
    Sys2Proof.core.run (k + 1) s = .refused r := by
  have h' : Sys2Proof.core.step s = .refused r := h
  simp only [Host.Core.run, h']

end Sys2Proof.Machine
end

