-- ==== Sys2Proof/Laws/Exec.lean ====
section
/-! SUPPORT. What every command's completion has in common: it answers a next state with BUSY = 0, either the error
completion of one code or an effect that leaves ERR and ERRCODE; and it neither reads nor writes the model's own fields. -/

namespace Sys2Proof.Machine

/-- The end of a chunk, by whether it has a block: every field it may write is named. -/
theorem emitChunk_eq (block : Option Block) (s : State) :
    emitChunk block s = { s with dout := (emitChunk block s).dout, cv := (emitChunk block s).cv,
                                 outLen := (emitChunk block s).outLen } := by
  cases block <;> rfl

/-- A command ends in one error completion, or it keeps ERR and ERRCODE; both set BUSY to 0. -/
theorem exec_cases (i : Instr) (s : State) :
    (∃ code, code ≠ .none ∧ exec i s = .next (errorCompletion code s)) ∨
    (∃ t, exec i s = .next t ∧ t.busy = false ∧ t.err = s.err ∧ t.errCode = s.errCode) := by
  cases i with
  | keyExpand ksz =>
    simp only [exec, execKeyExpand]
    split
    · exact .inl ⟨_, by decide, rfl⟩
    · split
      · exact .inl ⟨_, by decide, rfl⟩
      · exact .inr ⟨_, rfl, rfl, rfl, rfl⟩
  | encBlock len =>
    simp only [exec, execEncBlock, blockCommand]
    split
    · exact .inl ⟨_, by decide, rfl⟩
    · split
      · exact .inl ⟨_, by decide, rfl⟩
      · exact .inr ⟨_, rfl, rfl, rfl, rfl⟩
  | decBlock len =>
    simp only [exec, execDecBlock, blockCommand]
    split
    · exact .inl ⟨_, by decide, rfl⟩
    · split
      · exact .inl ⟨_, by decide, rfl⟩
      · exact .inr ⟨_, rfl, rfl, rfl, rfl⟩
  | gfMul => exact .inr ⟨_, rfl, rfl, rfl, rfl⟩
  | cbcEncInit ksz =>
    simp only [exec, execCbcEncInit]
    split
    · exact .inl ⟨_, by decide, rfl⟩
    · split
      · exact .inl ⟨_, by decide, rfl⟩
      · exact .inr ⟨_, rfl, rfl, rfl, rfl⟩
  | cbcEncChunk n =>
    simp only [exec, execCbcEncChunk]
    split
    · exact .inl ⟨_, by decide, rfl⟩
    · split
      · exact .inl ⟨_, by decide, rfl⟩
      · rw [emitChunk_eq]
        split <;> exact .inr ⟨_, rfl, rfl, rfl, rfl⟩
  | cbcDecInit ksz =>
    simp only [exec, execCbcDecInit]
    split
    · exact .inl ⟨_, by decide, rfl⟩
    · split
      · exact .inl ⟨_, by decide, rfl⟩
      · split
        · exact .inl ⟨_, by decide, rfl⟩
        · split <;> exact .inr ⟨_, rfl, rfl, rfl, rfl⟩
  | cbcDecBlock len =>
    simp only [exec, execCbcDecBlock]
    split
    · exact .inl ⟨_, by decide, rfl⟩
    · split
      · exact .inl ⟨_, by decide, rfl⟩
      · split <;> exact .inr ⟨_, rfl, rfl, rfl, rfl⟩
  | zeroize => exact .inr ⟨_, rfl, rfl, rfl, rfl⟩

/-- A state with the model's own fields replaced. -/
def State.withHost (s : State) (agenda : List Event) (readData : Word) (draws : Nat) : State :=
  { s with agenda := agenda, readData := readData, draws := draws }

/-- An outcome with its state mapped. -/
def mapNext (f : State → State) : Host.Outcome State Fault Refusal → Host.Outcome State Fault Refusal
  | .next t => .next (f t)
  | .fault r => .fault r
  | .refused r => .refused r

/-- What a chunk emits depends on none of the model's own fields. -/
theorem emitChunk_withHost (block : Option Block) (s : State) (agenda : List Event) (readData : Word) (draws : Nat) :
    emitChunk block (s.withHost agenda readData draws) = (emitChunk block s).withHost agenda readData draws := by
  cases block <;> rfl

theorem mapNext_ite (f : State → State) (c : Prop) [Decidable c] (x y : Host.Outcome State Fault Refusal) :
    mapNext f (if c then x else y) = if c then mapNext f x else mapNext f y := by
  split <;> rfl

/-- A command neither reads nor writes the agenda, the read data and the count of draws. -/
theorem exec_withHost (i : Instr) (s : State) (agenda : List Event) (readData : Word) (draws : Nat) :
    exec i (s.withHost agenda readData draws) = mapNext (·.withHost agenda readData draws) (exec i s) := by
  cases i with
  | keyExpand ksz =>
    simp only [exec, execKeyExpand, mapNext_ite]
    exact if_congr Iff.rfl rfl (if_congr Iff.rfl rfl rfl)
  | encBlock len =>
    simp only [exec, execEncBlock, blockCommand, apply_ite Host.Outcome.next, mapNext_ite]
    exact if_congr Iff.rfl rfl (if_congr Iff.rfl rfl rfl)
  | decBlock len =>
    simp only [exec, execDecBlock, blockCommand, apply_ite Host.Outcome.next, mapNext_ite]
    exact if_congr Iff.rfl rfl (if_congr Iff.rfl rfl rfl)
  | gfMul => rfl
  | cbcEncInit ksz =>
    simp only [exec, execCbcEncInit, mapNext_ite]
    exact if_congr Iff.rfl rfl (if_congr Iff.rfl rfl rfl)
  | cbcEncChunk n =>
    simp only [exec, execCbcEncChunk, mapNext_ite, emitChunk_withHost]
    refine if_congr Iff.rfl rfl (if_congr Iff.rfl rfl ?_)
    split <;> rfl
  | cbcDecInit ksz =>
    simp only [exec, execCbcDecInit, mapNext_ite]
    exact if_congr Iff.rfl rfl (if_congr Iff.rfl rfl (if_congr Iff.rfl rfl (if_congr Iff.rfl rfl rfl)))
  | cbcDecBlock len =>
    simp only [exec, execCbcDecBlock, mapNext_ite]
    exact if_congr Iff.rfl rfl (if_congr Iff.rfl rfl (if_congr Iff.rfl rfl rfl))
  | zeroize => rfl

end Sys2Proof.Machine
end

