-- ==== Sys2Proof/Laws/Galois.lean ====
section
/-! SUPPORT. The multiply loop is linear in its accumulator and its second operand together. -/

namespace Sys2Proof.Machine

/-- Two runs of the loop with the same `a` xor to one run. -/
theorem multiplyLoop_xor (n : Nat) (acc acc' a b b' : Byte) :
    multiplyLoop n (acc ^^^ acc') a (b ^^^ b') = multiplyLoop n acc a b ^^^ multiplyLoop n acc' a b' := by
  induction n generalizing acc acc' a b b' with
  | zero => rfl
  | succ n ih =>
    have h : (if (b ^^^ b').getLsbD 0 then (acc ^^^ acc') ^^^ a else acc ^^^ acc') =
        (if b.getLsbD 0 then acc ^^^ a else acc) ^^^ (if b'.getLsbD 0 then acc' ^^^ a else acc') := by
      rw [BitVec.getLsbD_xor]
      cases b.getLsbD 0 <;> cases b'.getLsbD 0 <;> simp only [Bool.xor_false, Bool.xor_true, Bool.not_true, Bool.not_false,
        if_true, if_false, Bool.false_eq_true]
      · rw [BitVec.xor_assoc]
      · rw [BitVec.xor_assoc, BitVec.xor_assoc, BitVec.xor_comm acc' a]
      · rw [BitVec.xor_assoc acc a, ← BitVec.xor_assoc a acc', BitVec.xor_comm a acc', BitVec.xor_assoc acc' a a,
          BitVec.xor_self, BitVec.xor_zero]
    rw [multiplyLoop, h, show (b ^^^ b') >>> 1 = (b >>> 1) ^^^ (b' >>> 1) from BitVec.ushiftRight_xor_distrib ..]
    exact ih ..

end Sys2Proof.Machine
end

