-- ==== Sys2Proof/Laws/KeySchedule.lean ====
section
/-! SUPPORT. The list of key-schedule words: its length, that more words never change the earlier ones, and which word
each step appends. -/

namespace Sys2Proof.Machine

@[simp] theorem extendWords_length (nk n : Nat) (w : List KeyWord) : (extendWords nk n w).length = w.length + n := by
  induction n generalizing w with
  | zero => rfl
  | succ n ih => simp [extendWords, ih]; omega

@[simp] theorem keyWords_length (nk : Nat) (key : List Byte) : (keyWords nk key).length = nk := by
  simp [keyWords]

/-- Extending a list keeps every word it has. -/
theorem wordAt_extendWords_of_lt (nk n j : Nat) (w : List KeyWord) (h : j < w.length) :
    wordAt (extendWords nk n w) j = wordAt w j := by
  induction n generalizing w with
  | zero => rfl
  | succ n ih =>
    rw [extendWords, ih _ (by simp; omega)]
    simp [wordAt, List.getD, List.getElem?_append_left h]

/-- The word at a new position `i` is `nextWord` of the words before it: those are the list cut at `i`. -/
theorem wordAt_extendWords (nk n i : Nat) (w : List KeyWord) (h1 : w.length ≤ i) (h2 : i < w.length + n) :
    wordAt (extendWords nk n w) i = nextWord nk (extendWords nk (i - w.length) w) := by
  induction n generalizing w with
  | zero => omega
  | succ n ih =>
    rw [extendWords]
    rcases Nat.lt_or_ge w.length i with h | h
    · rw [ih (w ++ [nextWord nk w]) (by simp; omega) (by simp; omega)]
      have : i - w.length = (i - (w ++ [nextWord nk w]).length) + 1 := by simp; omega
      rw [this, extendWords]
    · obtain rfl : i = w.length := by omega
      rw [wordAt_extendWords_of_lt _ _ _ _ (by simp)]
      simp [wordAt, extendWords]

/-- Assumption 7: what the model's `rcon` answers at the indices that R98 does not define. -/
theorem rcon_outside : rcon 0 = 0x01#8 ∧ ∀ j, 10 < j → rcon j = 0#8 := by
  refine ⟨rfl, fun j hj => ?_⟩
  have h : rconTable.length ≤ j - 1 := by simp [rconTable]; omega
  simp [rcon, List.getD, List.getElem?_eq_none h]

/-- R98: the expansion reads Rcon at indices 1..10 alone, for every key size. -/
theorem rcon_index_in_range (nk i : Nat) (hk : nk = 4 ∨ nk = 6 ∨ nk = 8) (h1 : nk ≤ i) (h2 : i < 4 * (nrOf nk + 1)) :
    1 ≤ i / nk ∧ i / nk ≤ 10 := by
  rcases hk with rfl | rfl | rfl <;> simp [nrOf] at h2 <;> omega

end Sys2Proof.Machine
end

