-- ==== Sys2Proof/Laws/PerInstr.lean ====
section
/-! SUPPORT. A statement per command about its syntax: its word carries the fixed bits of its row of the opcode table
(30_encoding.md rule R76) and no reserved bit (rule R74). -/

namespace Sys2Proof.Laws

/-- R75, R76: the row of the opcode table a command stands for. -/
def rowOf : Instr → OpRow
  | .keyExpand _ => ⟨.keyExpand, 0x00000001#32, 0xFFFCFFFF#32⟩
  | .encBlock _ => ⟨.encBlock, 0x00000002#32, 0xFFFFE0FF#32⟩
  | .decBlock _ => ⟨.decBlock, 0x00000003#32, 0xFFFFE0FF#32⟩
  | .gfMul => ⟨.gfMul, 0x00000004#32, 0xFFFFFFFF#32⟩
  | .cbcEncInit _ => ⟨.cbcEncInit, 0x00000005#32, 0xFFFCFFFF#32⟩
  | .cbcEncChunk _ => ⟨.cbcEncChunk, 0x00000006#32, 0xFFFFE0FF#32⟩
  | .cbcDecInit _ => ⟨.cbcDecInit, 0x00000007#32, 0xFFFCFFFF#32⟩
  | .cbcDecBlock _ => ⟨.cbcDecBlock, 0x00000008#32, 0xFFFFE0FF#32⟩
  | .zeroize => ⟨.zeroize, 0x00000009#32, 0xFFFFFFFF#32⟩

/-- The statement of the family `WordInRow`: a well-formed command's word selects its own row. -/
def WordInRow.Statement (i : Instr) : Prop := i.WellFormed → (rowOf i).selects (encode i) = true

theorem len_cases (P : Nat → Prop) (h : ∀ n : Fin 32, P n.val) (len : Nat) (hl : lenFits len = true) : P len :=
  h ⟨len, by simpa [lenFits] using hl⟩

theorem WordInRow.keyExpand (ksz : BitVec 2) : WordInRow.Statement (.keyExpand ksz) := fun _ => by
  revert ksz; decide

theorem WordInRow.encBlock (len : Nat) : WordInRow.Statement (.encBlock len) :=
  len_cases (fun n => (rowOf (.encBlock n)).selects (encode (.encBlock n)) = true) (by decide) len

theorem WordInRow.decBlock (len : Nat) : WordInRow.Statement (.decBlock len) :=
  len_cases (fun n => (rowOf (.decBlock n)).selects (encode (.decBlock n)) = true) (by decide) len

theorem WordInRow.gfMul : WordInRow.Statement .gfMul := fun _ => by decide

theorem WordInRow.cbcEncInit (ksz : BitVec 2) : WordInRow.Statement (.cbcEncInit ksz) := fun _ => by
  revert ksz; decide

theorem WordInRow.cbcEncChunk (len : Nat) : WordInRow.Statement (.cbcEncChunk len) :=
  len_cases (fun n => (rowOf (.cbcEncChunk n)).selects (encode (.cbcEncChunk n)) = true) (by decide) len

theorem WordInRow.cbcDecInit (ksz : BitVec 2) : WordInRow.Statement (.cbcDecInit ksz) := fun _ => by
  revert ksz; decide

theorem WordInRow.cbcDecBlock (len : Nat) : WordInRow.Statement (.cbcDecBlock len) :=
  len_cases (fun n => (rowOf (.cbcDecBlock n)).selects (encode (.cbcDecBlock n)) = true) (by decide) len

theorem WordInRow.zeroize : WordInRow.Statement .zeroize := fun _ => by decide

end Sys2Proof.Laws
end

