-- ==== Sys2Proof/Tests/Slice0.lean ====
section
/-! SUPPORT. The model's own tests: ill-formed commands, words written out bit by bit, single steps against the vectors of
95_test_vectors.md, and for every obligation with hypotheses a concrete input that meets them. -/

open Sys2Proof Sys2Proof.Machine Sys2Proof.Claims

namespace Sys2Proof.Tests

/-! ## WellFormed: a byte count above 31 has no word (30_encoding.md rule R72) -/

theorem test_encBlock_len32_refused : ¬(Instr.encBlock 32).WellFormed := by decide
theorem test_decBlock_len32_refused : ¬(Instr.decBlock 32).WellFormed := by decide
theorem test_cbcEncChunk_len32_refused : ¬(Instr.cbcEncChunk 32).WellFormed := by decide
theorem test_cbcDecBlock_len32_refused : ¬(Instr.cbcDecBlock 32).WellFormed := by decide

/-! ## Decode: RSV1 KSZ RSV0 LEN OPC, bit 31 on the left (30_encoding.md rules R70, R75) -/

theorem test_word_keyExpand_256 : decode 0b00000000000000_10_000_00000_00000001#32 = some (.keyExpand 2#2) := by decide
theorem test_word_encBlock_16 : decode 0b00000000000000_00_000_10000_00000010#32 = some (.encBlock 16) := by decide
theorem test_word_decBlock_1 : decode 0b00000000000000_00_000_00001_00000011#32 = some (.decBlock 1) := by decide
theorem test_word_gfMul : decode 0b00000000000000_00_000_00000_00000100#32 = some .gfMul := by decide
theorem test_word_cbcEncInit_192 : decode 0b00000000000000_01_000_00000_00000101#32 = some (.cbcEncInit 1#2) := by decide
theorem test_word_cbcEncChunk_31 : decode 0b00000000000000_00_000_11111_00000110#32 = some (.cbcEncChunk 31) := by decide
theorem test_word_cbcDecInit_3 : decode 0b00000000000000_11_000_00000_00000111#32 = some (.cbcDecInit 3#2) := by decide
theorem test_word_cbcDecBlock_15 : decode 0b00000000000000_00_000_01111_00001000#32 = some (.cbcDecBlock 15) := by decide
theorem test_word_zeroize : decode 0b00000000000000_00_000_00000_00001001#32 = some .zeroize := by decide

/-- The illegal words of 95_test_vectors.md L2-ERR-2, L2-ERR-6 to L2-ERR-11, L2-BT-17 and L2-GF-15. -/
theorem test_illegal_words :
    [0x00030101#32, 0x00000000#32, 0x0000000A#32, 0x00002001#32, 0x00040001#32, 0x80000009#32, 0x00011006#32,
      0x00011002#32, 0x00000104#32].all (fun v => decode v == none) = true := by decide

theorem test_table_word_first_bits : decodeTableWord 32 0x00001008 = some (.cbcDecBlock 16) := by decide
theorem test_table_word_too_long : decodeTableWord 40 0x0100000004 = none := by decide

/-! ## Single steps -/

/-- The next state of an outcome, if it has one. -/
def nextOf (o : Host.Outcome Machine.State Fault Refusal) : Option Machine.State :=
  match o with
  | .next t => some t
  | .fault _ => none
  | .refused _ => none

/-- A field of the state after one step that runs the command word `v` from `s`. -/
def runWord {α : Type} (v : Nat) (s : Machine.State) (f : Machine.State → α) : Option α :=
  (nextOf (step (s.withFetchWord 32 v))).map f

/-- The words of key bytes 00, 01, ..., 1f (95_test_vectors.md L1-1, L2-BT-5, L2-BT-6). -/
def keyed : Machine.State :=
  { State.reset with
    key := #v[0x03020100#32, 0x07060504#32, 0x0B0A0908#32, 0x0F0E0D0C#32,
              0x13121110#32, 0x17161514#32, 0x1B1A1918#32, 0x1F1E1D1C#32] }

/-- The plaintext of 95_test_vectors.md. -/
def plain : Vector Word 4 := #v[0x33221100#32, 0x77665544#32, 0xBBAA9988#32, 0xFFEEDDCC#32]

/-- The IV of 95_test_vectors.md. -/
def ivWords : Vector Word 4 := #v[0xF3F2F1F0#32, 0xF7F6F5F4#32, 0xFBFAF9F8#32, 0xFFFEFDFC#32]

/-- The bytes 00, 01, ..., 0f. -/
def counting : Vector Word 4 := #v[0x03020100#32, 0x07060504#32, 0x0B0A0908#32, 0x0F0E0D0C#32]

/-- The block `753d5eacf88ed4c2c30496112e5f2221` of L2-CBC-1. -/
def firstCipher : Vector Word 4 := #v[0xAC5E3D75#32, 0xC2D48EF8#32, 0x119604C3#32, 0x21225F2E#32]

/-- An idle block with an expanded key of the given size. -/
def expanded (ksz : BitVec 2) : Machine.State := expandInto ksz keyed

/-- An encryption stream before its first chunk, `counting` in DIN. -/
def encrypting : Machine.State :=
  { expanded 0#2 with iv := ivWords, cv := ivWords, din := counting, stream := .enc, first := true }

/-- A decryption stream with `left` bytes to come, the block `c` in DIN. -/
def decrypting (left : Word) (c : Vector Word 4) : Machine.State :=
  { expanded 0#2 with iv := ivWords, cv := ivWords, din := c, stream := .dec, blkRem := left, streamLen := left }

/-- L2-KS-2. -/
theorem test_keyExpand_192 :
    runWord 0x00010001
      { State.reset with key := #v[0xF7B0738E#32, 0x52640EDA#32, 0x2BF310C8#32, 0xE5799080#32, 0xD2EAF862#32,
                                   0x7B6B2C52#32, 0xFFFFFFFF#32, 0xFFFFFFFF#32] }
      (fun t => (t.w[6], t.w[51], t.w[52], t.w[59], statusWord t)) =
      some (0xF7910CFE#32, 0x02220001#32, 0#32, 0#32, 0x000C0002#32) := by decide +kernel

/-- L2-KS-3. -/
theorem test_keyExpand_256 :
    runWord 0x00020001
      { State.reset with key := #v[0x10EB3D60#32, 0xBE71CA15#32, 0xF0AE732B#32, 0x81777D85#32, 0x072C351F#32,
                                   0xD708613B#32, 0xA310982D#32, 0xF4DF1409#32] }
      (fun t => (t.w[8], t.w[12], t.w[59], statusWord t)) =
      some (0x1154A39B#32, 0x1A9CB0A8#32, 0x1E636C70#32, 0x000E0002#32) := by decide +kernel

/-- L1-1. -/
theorem test_encBlock_known_answer :
    runWord 0x00001002 { expanded 0#2 with din := plain } (fun t => (t.dout, t.outLen)) =
      some (#v[0xD8E0C469#32, 0x30047B6A#32, 0x80B7CDD8#32, 0x5AC5B470#32], 16#5) := by decide +kernel

/-- L2-BT-6. -/
theorem test_encBlock_256 :
    runWord 0x00001002 { expanded 2#2 with din := plain } (·.dout) =
      some #v[0xCAB7A28E#32, 0xBF456751#32, 0x9049FCEA#32, 0x8960494B#32] := by decide +kernel

/-- L2-BT-5, decrypted back. -/
theorem test_decBlock_192 :
    runWord 0x00001003
      { expanded 1#2 with din := #v[0xA47CA9DD#32, 0xE0DF4C86#32, 0xA070AF6E#32, 0x91710DEC#32] } (·.dout) =
      some plain := by decide +kernel

/-- L2-BT-14 for DEC_BLOCK: no key. -/
theorem test_decBlock_without_key : runWord 0x00001003 State.reset statusWord = some 0x00000404#32 := by decide +kernel

/-- L2-GF-12. -/
theorem test_gfMul :
    runWord 0x00000004 { State.reset with gfa := 0x57#8, gfb := 0x83#8 } (fun t => (t.gfRes, statusWord t)) =
      some (0xC1#8, 0#32) := by decide +kernel

/-- L2-GF-15. -/
theorem test_gfMul_with_len :
    runWord 0x00000104 { State.reset with gfa := 0x57#8, gfb := 0x83#8 } (fun t => (t.gfRes, statusWord t)) =
      some (0x00#8, 0x00000604#32) := by decide +kernel

/-- 44_cbc_chainer.md rule R131, the worked example. -/
theorem test_cbcEncInit :
    runWord 0x00000005 { keyed with iv := ivWords } (fun t => (t.dout, t.outLen, t.cv, statusWord t)) =
      some (ivWords, 16#5, ivWords, 0x000A001A#32) := by decide +kernel

/-- L2-CBC-6g. -/
theorem test_cbcEncInit_in_stream : runWord 0x00000005 encrypting statusWord = some 0x00000504#32 := by decide +kernel

/-- L2-CBC-1, n = 16, and L2-CBC-5. -/
theorem test_cbcEncChunk_full :
    runWord 0x00001006 encrypting (fun t => (t.dout, t.cv, statusWord t)) =
      some (firstCipher, firstCipher, 0x000A0012#32) := by decide +kernel

/-- L2-CBC-1, n = 15: the block `e99f0216caca11e7aeb88ae7756fb05e`. -/
theorem test_cbcEncChunk_padded :
    runWord 0x00000F06 encrypting (fun t => (t.dout, t.key[0], statusWord t)) =
      some (#v[0x16029FE9#32, 0xE711CACA#32, 0xE78AB8AE#32, 0x5EB06F75#32], 0#32, 0#32) := by decide +kernel

/-- L2-CBC-5. -/
theorem test_cbcDecInit :
    runWord 0x00000007 { keyed with streamLen := 32#32, iv := ivWords } (fun t => (statusWord t, t.blkRem, t.cv)) =
      some (0x000A0022#32, 32#32, ivWords) := by decide +kernel

/-- L2-CBC-6d. -/
theorem test_cbcDecInit_length :
    runWord 0x00000007 { keyed with streamLen := 20#32 } (fun t => (statusWord t, t.w[0], t.key[0])) =
      some (0x00000304#32, 0#32, 0#32) := by decide +kernel

/-- L2-CBC-5. -/
theorem test_cbcDecBlock_middle :
    runWord 0x00001008 (decrypting 32#32 firstCipher) (fun t => (t.dout, t.cv, t.outLen, t.blkRem, statusWord t)) =
      some (counting, firstCipher, 16#5, 16#32, 0x000A0022#32) := by decide +kernel

/-- L2-CBC-3, last byte 0x05: the block `62cf9253393a402677e13943afaf5795`. -/
theorem test_cbcDecBlock_last :
    runWord 0x00001008 (decrypting 16#32 #v[0x5392CF62#32, 0x26403A39#32, 0x4339E177#32, 0x9557AFAF#32])
      (fun t => (t.dout[3], t.outLen, t.blkRem, statusWord t)) =
      some (0x05AAAAAA#32, 11#5, 0#32, 0#32) := by decide +kernel

/-- L2-CTL-2. -/
theorem test_zeroize :
    runWord 0x00000009 (decrypting 32#32 firstCipher)
      (fun t => ([t.iv, t.cv, t.din, t.dout], t.key[0], t.blkRem, t.streamLen, statusWord t)) =
      some (List.replicate 4 (Vector.replicate 4 0#32), 0#32, 0#32, 32#32, 0#32) := by decide +kernel

/-- L2-ERR-10: the illegal ZEROIZE keeps IV. -/
theorem test_zeroize_with_reserved_bit :
    runWord 0x80000009 encrypting (fun t => (t.iv, t.key[0], statusWord t)) = some (ivWords, 0#32, 0x00000604#32) := by
  decide +kernel

/-! ## Bus -/

/-- L2-BUS-4, L2-BUS-5, L2-BUS-6, L2-BUS-7: the written word read back. -/
theorem test_bus_writes_read_back :
    [(0x010, 0xFFFF8357#32), (0x008, 0xFFFFFFFF#32), (0x020, 0x12345678#32), (0x100, 1#32), (0x040, 0x03020100#32)].map
      (fun p => (nextOf (busWrite .word p.1 p.2 State.reset)).map (idleRead · p.1)) =
      [some 0x00008357#32, some 0#32, some 0#32, some 0#32, some 0x03020100#32] := by decide +kernel

/-- L2-BUS-8. -/
theorem test_bus_misaligned_read : busRead .word 0x042 State.reset = .fault .busAccess := rfl

/-! ## Witnesses: for each obligation with hypotheses, and each of its clauses, an input that meets them -/

/-- A block with the word `v` in flight and `agenda` to come. -/
def inFlight (v : Word) (agenda : List Event) : Machine.State :=
  { State.reset with lastCmd := v, pending := v, busy := true, agenda := agenda }

theorem witness_DecodeOfEncodeIsTheCommand :
    (Instr.encBlock 31).WellFormed ∧ (Instr.decBlock 0).WellFormed ∧ (Instr.cbcEncChunk 16).WellFormed ∧
    (Instr.cbcDecBlock 31).WellFormed ∧ (Instr.keyExpand 3#2).WellFormed ∧ (Instr.zeroize).WellFormed := by decide

theorem witness_DecodedWordIsTheCommandsWord : decode 0x00001F06#32 = some (.cbcEncChunk 31) := by decide

theorem witness_IllegalWordsAndTheirCompletion :
    (inFlight 0x0000000A#32 []).busy = true ∧ decode (inFlight 0x0000000A#32 []).pending = none ∧
    decode (inFlight 0x00002001#32 []).pending = none ∧ decode (inFlight 0x00011002#32 []).pending = none ∧
    decode (inFlight 0x00000101#32 []).pending = none := by decide

theorem witness_StepExecutesThePendingCommand :
    ((inFlight 0x00000009#32 []).agenda = [] ∧ (inFlight 0x00000009#32 []).busy = true ∧
      decode (inFlight 0x00000009#32 []).pending = some .zeroize) ∧
    ((inFlight 0x00000004#32 [.engine, .reset]).agenda = .engine :: [.reset] ∧
      (inFlight 0x00000004#32 [.engine, .reset]).busy = true ∧
      decode (inFlight 0x00000004#32 [.engine, .reset]).pending = some .gfMul) ∧
    (({ State.reset with agenda := [.engine] } : Machine.State).agenda = .engine :: [] ∧
      ({ State.reset with agenda := [.engine] } : Machine.State).busy = false) ∧
    (State.reset.agenda = [] ∧ State.reset.busy = false) ∧ (Instr.encBlock 31).WellFormed := by decide

theorem witness_EveryIssuedWordCompletes :
    ((inFlight 0#32 []).busy = true ∧ enginesTurn (inFlight 0#32 [])) ∧
    ((inFlight 4#32 [.engine]).busy = true ∧ enginesTurn (inFlight 4#32 [.engine])) :=
  ⟨⟨rfl, .inl rfl⟩, ⟨rfl, .inr ⟨[], rfl⟩⟩⟩

theorem witness_RegisterMapIsOneToOne :
    Reg.ofOffset 0x000 = some .id ∧ Reg.ofOffset 0x01C = some .blkRem ∧ Reg.ofOffset 0x040 = some (.key 0) ∧
    Reg.ofOffset 0x09C = some (.dout 3) ∧ Reg.ofOffset 0x100 = some (.w 0) ∧ Reg.ofOffset 0x1EC = some (.w 59) ∧
    [0x020, 0x03C, 0x0A0, 0x0FC, 0x1F0, 0x1FC].all (fun off => Reg.ofOffset off == none) = true := by decide +kernel

theorem witness_ReadsHaveNoSideEffect :
    (∃ t, busRead .word 0x008 (inFlight 1#32 []) = .next t) ∧ (∃ t, busRead .word 0x1FC State.reset = .next t) ∧
    0x1FC < 0x200 ∧ 0x1FC % 4 = 0 ∧ State.reset.busy = false :=
  ⟨⟨_, rfl⟩, ⟨_, rfl⟩, by decide, by decide, rfl⟩

/-- Reserved offsets at both ends of each range. -/
theorem witness_IdleReadsReturnTheRegisters :
    encrypting.busy = false ∧
    [0x020, 0x03C, 0x0A0, 0x0FC, 0x1F0, 0x1FC].all (fun off => decide (off % 4 = 0 ∧
      ((0x020 ≤ off ∧ off ≤ 0x03C) ∨ (0x0A0 ≤ off ∧ off ≤ 0x0FC) ∨ (0x1F0 ≤ off ∧ off ≤ 0x1FC)))) = true := by decide +kernel

/-- One offset for each clause, at the ends of its ranges: a read-write register, GFOP, a register or offset that no write
changes, and a pair of different offsets. -/
theorem witness_WritesChangeOnlyTheirRegister :
    State.reset.busy = false ∧
    [0x018, 0x040, 0x06C, 0x080, 0x08C].all (fun off => decide (off < 0x200 ∧ off % 4 = 0 ∧
      (off = 0x018 ∨ (0x040 ≤ off ∧ off < 0x070) ∨ (0x080 ≤ off ∧ off < 0x090)))) = true ∧
    (0x010 < 0x200 ∧ 0x010 % 4 = 0) ∧
    [0x000, 0x008, 0x00C, 0x014, 0x01C, 0x03C, 0x070, 0x07C, 0x090, 0x1FC].all (fun off => decide (off < 0x200 ∧ off % 4 = 0 ∧
      off ≠ 0x004 ∧ off ≠ 0x010 ∧ off ≠ 0x018 ∧ ¬(0x040 ≤ off ∧ off < 0x070) ∧ ¬(0x080 ≤ off ∧ off < 0x090))) = true ∧
    (0x040 ≠ 0x004 ∧ 0x044 % 4 = 0 ∧ 0x044 ≠ 0x040) := by decide

theorem witness_IssueChangesWhatR24Names : State.reset.busy = false ∧ (inFlight 4#32 []).busy = true := by decide

theorem witness_BusAccessesThatStop :
    0x200 ≤ 0x200 ∧ (0x1FC < 0x200 ∧ AccessWidth.half ≠ .word) ∧ (0x1FF < 0x200 ∧ 0x1FF % 4 ≠ 0) ∧
    (0x1FC < 0x200 ∧ 0x1FC % 4 = 0 ∧ (inFlight 4#32 []).busy = true) ∧ State.reset.busy = false := by decide

theorem witness_BusyReadsAreDraws :
    (inFlight 4#32 []).busy = true ∧ 0x00C ≤ 0x00C ∧ 0x00C % 4 = 0 ∧ 0x1FC < 0x200 ∧ 0x1FC % 4 = 0 ∧ 0 < 1 := by decide

theorem witness_AgendaRunsAsItsEvents : State.reset.agenda = [] := rfl

theorem witness_GfMulWritesTheProduct :
    (inFlight 0x80000004#32 []).busy = true ∧ (inFlight 0x80000004#32 []).pending.extractLsb' 0 8 = 0x04#8 ∧
    (inFlight 0x80000004#32 []).pending ≠ 0x00000004#32 := by decide

/-- GFRES changes by a completion and by a reset. -/
theorem witness_OnlyGfMulAndResetWriteGfres :
    ((nextOf (applyEvent .engine { inFlight 4#32 [] with gfa := 1#8, gfb := 2#8 })).map (·.gfRes)) = some 2#8 ∧
    ((nextOf (applyEvent .reset { inFlight 4#32 [] with gfRes := 7#8 })).map (·.gfRes)) = some 0#8 ∧
    State.reset.busy = false := by decide +kernel

theorem witness_MultiplyFieldLaws : 0x53#8 ≠ 0x00#8 ∧ multiply 0x53#8 0xCA#8 = 0x01#8 ∧ 0xFF#8 ≠ 0x00#8 := by decide

theorem witness_SboxIsTheAffineInverse :
    (0x00#8 = 0x00#8 ∧ 0x00#8 = 0x00#8) ∧ (0x02#8 ≠ 0x00#8 ∧ multiply 0x02#8 0x8D#8 = 0x01#8) := by decide

theorem witness_RoundConstantsDouble : 1 ≤ 1 ∧ 1 < 10 ∧ 1 ≤ 9 ∧ 9 < 10 := by decide

/-- All three key sizes, and the first and last word of each clause. -/
theorem witness_KeyExpandFillsTheStore :
    keyed.stream = .idle ∧ 0#2 ≠ 3#2 ∧ 1#2 ≠ 3#2 ∧ 2#2 ≠ 3#2 ∧
    (0 < 4 + 2 * (0#2).toNat ∧ 7 < 4 + 2 * (2#2).toNat) ∧
    [0#2, 1#2, 2#2].all (fun ksz => (nextOf (exec (.keyExpand ksz) keyed)).any fun t =>
      decide (4 + 2 * ksz.toNat ≤ 4 * (t.nr.toNat + 1) - 1)) = true ∧
    [0#2, 1#2].all (fun ksz => (nextOf (exec (.keyExpand ksz) keyed)).any fun t =>
      decide (4 * (t.nr.toNat + 1) ≤ 59)) = true := by decide +kernel

/-- Two states that agree on a 128-bit key and on nothing after it. -/
theorem witness_ExpansionDependsOnTheKeyAlone :
    0#2 ≠ 3#2 ∧ keyed.stream = .idle ∧
    (∀ k : Fin 8, k.val < 4 + 2 * (0#2).toNat →
      keyed.key[k] = ({ keyed with key := keyed.key.set 4 0#32 } : Machine.State).key[k]) := by decide

theorem witness_KeyExpandErrors : encrypting.stream ≠ .idle ∧ keyed.stream = .idle ∧ 3#2 = 3#2 := by decide

/-- Two expansions that agree up to round key 1, and differ after it. -/
theorem witness_TransformsReadOnlyTheirRoundKeys :
    ∀ j : Nat, j < 4 * (1 + 1) → wordAt (List.replicate 8 #v[1#8, 2#8, 3#8, 4#8]) j =
      wordAt (List.replicate 8 #v[1#8, 2#8, 3#8, 4#8] ++ [#v[9#8, 9#8, 9#8, 9#8]]) j := by decide

theorem witness_BlockRoundTrip :
    (expanded 0#2).keyValid = true ∧
    (let s : Machine.State := { keyed with din := plain }
     s.stream = .idle ∧ s.key[0] = 0x03020100#32 ∧ s.key[1] = 0x07060504#32 ∧ s.key[2] = 0x0B0A0908#32 ∧
       s.key[3] = 0x0F0E0D0C#32 ∧ s.din = #v[0x33221100#32, 0x77665544#32, 0xBBAA9988#32, 0xFFEEDDCC#32]) := by decide +kernel

/-- For EncBlockWritesTheCiphertext and DecBlockWritesThePlaintext: an idle block and an open stream, both with a key. -/
theorem witness_BlockCommandsWithKey : (expanded 2#2).keyValid = true ∧ encrypting.keyValid = true := ⟨rfl, rfl⟩

theorem witness_BlockCommandErrors : 15 ≠ 16 ∧ 0 ≠ 16 ∧ 16 = 16 ∧ State.reset.keyValid = false := by decide

theorem witness_EncInitOpensTheStream : keyed.stream = .idle ∧ 0#2 ≠ 3#2 ∧ 2#2 ≠ 3#2 := by decide

/-- A full chunk, a chunk of 15 and one of 1 byte, an empty chunk that is not the first, and the empty first chunk; the
padded block of the second clause exists for each. -/
theorem witness_EncChunkEncryptsItsBlock :
    encrypting.stream = .enc ∧ encrypting.first = true ∧ ({ encrypting with first := false } : Machine.State).first = false ∧
    [15, 1].all (fun n => decide (n < 16 ∧ ¬(encrypting.first = true ∧ n = 0))) = true ∧
    [0, 1, 15].all (fun n => (List.finRange 16).all fun i => (pad (bytes16 encrypting.din) n)[i] ==
      if i.val < n then (bytes16 encrypting.din)[i] else BitVec.ofNat 8 (16 - n)) = true := by decide +kernel

theorem witness_DecInitOpensTheStream :
    keyed.stream = .idle ∧ 1#2 ≠ 3#2 ∧ keyed.streamLen = 0#32 ∧
    (let s : Machine.State := { keyed with streamLen := 0xFFFFFFF0#32 }
     s.streamLen ≠ 0#32 ∧ s.streamLen.toNat % 16 = 0) := by decide

/-- A block that is not the last, and a last block with each kind of pad byte: 0, 1, 16 and 17. -/
theorem witness_DecBlockOfStreamDecrypts :
    (decrypting 32#32 firstCipher).stream = .dec ∧ (decrypting 32#32 firstCipher).blkRem ≠ 16#32 ∧
    (decrypting 16#32 firstCipher).blkRem = 16#32 ∧
    [#v[0x389BD245#32, 0x6C9581E3#32, 0x00D23B4B#32, 0xF6C8959A#32], #v[0x79E93F6C#32, 0x8F6BB459#32, 0x04049591#32, 0xF891A6BF#32],
      #v[0xC175CE79#32, 0x1DFD3AF0#32, 0xC45DACFD#32, 0x4D2A3B0D#32], #v[0xF8E89774#32, 0xE594836B#32, 0x430868A1#32, 0x3A461FF7#32]].map
      (fun c => (unchained (decrypting 16#32 c))[15].toNat) = [0, 1, 16, 17] := by decide +kernel

theorem witness_CbcErrors :
    encrypting.stream ≠ .idle ∧ keyed.stream = .idle ∧ 3#2 = 3#2 ∧ 0#2 ≠ 3#2 ∧
    ({ keyed with streamLen := 20#32 } : Machine.State).streamLen.toNat % 16 ≠ 0 ∧ keyed.stream ≠ .enc ∧
    encrypting.stream = .enc ∧ 16 < 17 ∧ encrypting.stream ≠ .dec ∧ (decrypting 16#32 counting).stream = .dec ∧
    15 ≠ 16 := by decide

theorem witness_UnpadInvertsPad : 0 < 16 ∧ 15 < 16 := by decide

/-- The decrypting block holds the same expansion and chaining value, and the ciphertext of the full chunk. -/
theorem witness_DecBlockUndoesEncChunk :
    encrypting.stream = .enc ∧ 16 ≤ 16 ∧ 0 ≤ 16 ∧ ¬(encrypting.first = true ∧ 16 = 0) ∧
    (let d := decrypting 16#32 firstCipher
     d.stream = .dec ∧ d.w = encrypting.w ∧ d.nr = encrypting.nr ∧ d.cv = encrypting.cv ∧ d.blkRem = 16#32 ∧
       (nextOf (exec (.cbcEncChunk 16) encrypting)).map (·.dout) = some d.din) ∧
    (decrypting 32#32 firstCipher).blkRem ≠ 16#32 := by decide +kernel

/-- The empty source and one of 17 bytes. -/
theorem witness_StreamRoundTrip :
    0#2 ≠ 3#2 ∧ (List.replicate 16 0x2B#8).length = 4 * (4 + 2 * (0#2).toNat) ∧ (List.replicate 16 0xF0#8).length = 16 ∧
    ([] : List Byte).length + 16 < 2 ^ 32 ∧ (List.replicate 17 0x5A#8).length + 16 < 2 ^ 32 ∧
    State.reset.busy = false ∧ State.reset.stream = .idle := by decide

theorem witness_ChainingValueReachesOneBlock : (decrypting 16#32 counting).stream = .dec := rfl

/-- The premises hold of the two stream states, and each clause of the conclusion has its command. -/
theorem witness_StreamStatesAdmitTheirCommands :
    encrypting.err = false ∧ encrypting.errCode = .none ∧ admits (.keyExpand 0#2) encrypting.stream = false ∧
    admits .gfMul encrypting.stream = true ∧
    (nextOf (exec (.encBlock 16) encrypting)).map (·.err) = some false ∧
    (nextOf (exec (.keyExpand 0#2) encrypting)).map (·.err) = some true := by decide +kernel

theorem witness_ZeroizeErasesTheBlock :
    (inFlight 0x00000109#32 []).busy = true ∧ (inFlight 0x00000109#32 []).pending.extractLsb' 0 8 = 0x09#8 ∧
    (inFlight 0x00000109#32 []).pending ≠ 0x00000009#32 := by decide

theorem witness_ErasureLeavesNoTraceOfTheKey :
    (keyed.err = false ∧ ∃ t, exec .zeroize keyed = .next t) ∧
    (encrypting.err = false ∧ ∃ t, exec (.keyExpand 0#2) encrypting = .next t ∧ t.err = true) :=
  ⟨⟨rfl, _, rfl⟩, ⟨rfl, _, rfl, rfl⟩⟩

theorem witness_FirstErrorIsReported :
    let s := inFlight 0x00030101#32 []
    s.busy = true ∧ s.err = false ∧ s.errCode = .none ∧ decode s.pending = none ∧
      firstError (.encBlock 15) s = .invalidBlockSize ∧ firstError (.cbcEncInit 3#2) encrypting = .sequence ∧
      firstError (.cbcDecInit 3#2) { s with streamLen := 20#32 } = .unsupportedKeySize := by decide

theorem witness_ErrorsArePrecise :
    (keyed.err = false ∧ ∃ t, exec (.cbcDecInit 0#2) { keyed with streamLen := 20#32 } = .next t ∧ t.err = true) ∧
    ((inFlight 0#32 []).busy = true ∧ (inFlight 0#32 []).err = false ∧
      ∃ t, engineStep (inFlight 0#32 []) = .next t ∧ t.err = true) :=
  ⟨⟨rfl, _, rfl, rfl⟩, ⟨rfl, rfl, _, rfl, rfl⟩⟩

/-- ERR changes by a completion, by a reset and by an issue; and states for the other two clauses. -/
theorem witness_ErrorFlagsHoldUntilTheNextIssue :
    ((nextOf (applyEvent .engine (inFlight 0#32 []))).map (·.err)) = some true ∧
    ((nextOf (applyEvent .reset { State.reset with err := true, errCode := .noKey })).map (·.err)) = some false ∧
    ((nextOf (applyEvent (.busWrite .word 0x004 4#32) { State.reset with err := true, errCode := .noKey })).map (·.err)) =
      some false ∧
    State.reset.busy = false ∧ (inFlight 0#32 []).busy = true := by decide +kernel

/-- An expansion command of each kind is a next state, and so is a wipe. -/
theorem witness_OnlyExpansionsAndWipesWriteTheStore :
    (∃ t, applyEvent .engine (inFlight 0x00010001#32 []) = .next t ∧ t.keyValid = true) ∧
    (∃ t, applyEvent .engine (inFlight 0x00020005#32 []) = .next t ∧ t.keyValid = true) ∧
    (∃ t, applyEvent .engine { inFlight 0x00000007#32 [] with streamLen := 16#32 } = .next t ∧ t.keyValid = true) ∧
    (∃ t, applyEvent .engine { encrypting with busy := true, pending := 0x00000009#32 } = .next t ∧ t.keyValid = false) :=
  ⟨⟨_, rfl, rfl⟩, ⟨_, rfl, rfl⟩, ⟨_, rfl, rfl⟩, ⟨_, rfl, rfl⟩⟩

theorem witness_CommandsKeepTheHostsRegisters :
    (∃ t, exec (.cbcEncInit 2#2) keyed = .next t) ∧ Instr.cbcEncInit 2#2 ≠ .zeroize ∧ Instr.cbcEncInit 2#2 ≠ .gfMul :=
  ⟨⟨_, rfl⟩, by decide, by decide⟩

theorem witness_HostAccessesKeepTheEnginesRegisters :
    (∃ t, step { encrypting with agenda := [.busRead .word 0x090] } = .next t) ∧
    (∃ t, step { encrypting with agenda := [.busWrite .word 0x004 0x00001006#32] } = .next t) :=
  ⟨⟨_, rfl⟩, ⟨_, rfl⟩⟩

/-- A state of the invariant with an open stream, a command in flight and a step to make. -/
theorem witness_EveryStepKeepsTheInvariant :
    (State.Inv { decrypting 32#32 firstCipher with lastCmd := 8#32, pending := 8#32, busy := true, agenda := [.engine] }) ∧
    ∃ t, step { decrypting 32#32 firstCipher with lastCmd := 8#32, pending := 8#32, busy := true, agenda := [.engine] } =
      .next t := by
  refine ⟨?_, _, rfl⟩
  constructor <;> simp [decrypting, expanded, keyed, State.reset]
  · exact ⟨0#2, by decide, rfl, keyed.key, rfl⟩

/-- A host that issues a command, polls once before the engine's turn and reads a result conforms. -/
theorem witness_ConformingRunsEndIdle :
    let s : Machine.State :=
      { State.reset with agenda := [.busWrite .word 0x004 4#32, .busRead .word 0x008, .engine, .busRead .word 0x014] }
    conforming s.busy s.agenda = true := by decide

/-- Both sides of the equivalence are met and both are missed: a write while BUSY = 1 does not conform. -/
theorem witness_RunsAreSafeExactlyWhenTheHostConforms :
    conforming false [.busWrite .word 0x004 4#32, .engine, .busWrite .word 0x010 0#32] = true ∧
    conforming false [.busWrite .word 0x004 4#32, .busWrite .word 0x010 0#32] = false ∧
    conforming true [.busWrite .word 0x1FC 0#32] = false ∧ conforming false [.busRead .word 0x200] = false := by decide

end Sys2Proof.Tests
end

section
/-! # Proofs about the state: issue, GFRES, ERR and ERRCODE (10_state.md rules R24, R28, R35)

First the rules about bus accesses, the engine's turn and events, one for each operation; then the fields they leave
unchanged; then the obligations. -/

namespace Sys2Proof.Machine

open Sys2Proof.Claims

/-! ## A byte read as a word -/

theorem zeroExtend_byte_low (b : Byte) : (b.zeroExtend 32).extractLsb' 0 8 = b := by
  ext k hk
  have : k < 32 := by omega
  simp [this, BitVec.getLsbD_eq_getElem hk]

theorem zeroExtend_byte_high (b : Byte) : (b.zeroExtend 32).extractLsb' 8 24 = 0#24 := by
  ext k hk
  simp

/-! ## Bus accesses to a named offset -/

theorem Reg.ofOffset_cmd : Reg.ofOffset 0x004 = some .cmd := by decide

theorem Reg.ofOffset_gfRes : Reg.ofOffset 0x014 = some .gfRes := by decide

/-- R51, R53: the bus checks let a good access through. -/
theorem guardAccess_good {off : Nat} (hwin : off < 0x200) (halign : off % 4 = 0)
    (access : Host.Outcome State Fault Refusal) : guardAccess .word off access = access := by
  rcases guardAccess_cases .word off access with ⟨hout, -⟩ | ⟨-, hbad, -⟩ | ⟨-, -, -, h⟩
  · omega
  · simp [halign] at hbad
  · exact h

theorem busRead_good {off : Nat} (hwin : off < 0x200) (halign : off % 4 = 0) (s : State) :
    busRead .word off s = .next (readAt off s) :=
  guardAccess_good hwin halign _

/-- R54: a good write that finds BUSY = 0 is the idle write. -/
theorem busWrite_good_idle {off : Nat} (hwin : off < 0x200) (halign : off % 4 = 0) (v : Word) {s : State}
    (hidle : s.busy = false) : busWrite .word off v s = .next (idleWrite off v s) := by
  rw [busWrite, guardAccess_good hwin halign, writeAt, hidle]
  rfl

/-- R195: a good write that finds BUSY = 1 is the hazard. -/
theorem busWrite_good_busy {off : Nat} (hwin : off < 0x200) (halign : off % 4 = 0) (v : Word) {s : State}
    (hbusy : s.busy = true) : busWrite .word off v s = .fault .busyWrite := by
  rw [busWrite, guardAccess_good hwin halign, writeAt, hbusy]
  rfl

theorem idleRead_of_found {off : Nat} {r : Reg} (h : Reg.ofOffset off = some r) (s : State) :
    idleRead s off = readReg s r := by
  rw [idleRead, h]

theorem idleWrite_of_found {off : Nat} {r : Reg} (h : Reg.ofOffset off = some r) (v : Word) (s : State) :
    idleWrite off v s = writeReg v s r := by
  rw [idleWrite, h]

/-- R24: a host write to CMD while BUSY = 0 is the issue of its word. -/
theorem busWrite_cmd_idle (v : Word) {s : State} (hidle : s.busy = false) :
    busWrite .word 0x004 v s = .next (issue v s) := by
  rw [busWrite_good_idle (by decide) (by decide) v hidle, idleWrite_of_found Reg.ofOffset_cmd, writeReg]

/-- R24, R196: CMD reads as LASTCMD, whether BUSY is 0 or 1. -/
theorem readAt_cmd (s : State) : readAt 0x004 s = { s with readData := s.lastCmd } := by
  unfold readAt
  split
  · rw [busyRead, Reg.ofOffset_cmd]
  · rw [idleRead_of_found Reg.ofOffset_cmd, readReg]

/-! ## The engine's turn and the events -/

/-- R26: the engine's turn does nothing, ends an illegal word, or executes the command in PENDING. -/
theorem engineStep_cases (s : State) :
    (s.busy = false ∧ engineStep s = .next s) ∨
    (s.busy = true ∧ decode s.pending = none ∧ engineStep s = .next (errorCompletion .illegalCommand s)) ∨
    (s.busy = true ∧ ∃ i, decode s.pending = some i ∧ engineStep s = exec i s) := by
  unfold engineStep completion
  cases s.busy with
  | false => exact .inl ⟨rfl, rfl⟩
  | true =>
    cases decode s.pending with
    | none => exact .inr (.inl ⟨rfl, rfl, rfl⟩)
    | some i => exact .inr (.inr ⟨rfl, i, rfl, rfl⟩)

/-- R59: what an event that answers a next state has done. -/
theorem applyEvent_next {e : Event} {s t : State} (h : applyEvent e s = .next t) :
    (∃ off, e = .busRead .word off ∧ t = readAt off s) ∨
    (∃ off v, e = .busWrite .word off v ∧ s.busy = false ∧ t = idleWrite off v s) ∨
    (e = .engine ∧ engineStep s = .next t) ∨
    (e = .reset ∧ t = platformReset s) := by
  cases e with
  | busRead width off =>
    obtain ⟨-, rfl, -, ht⟩ := busRead_next h
    exact .inl ⟨off, rfl, ht⟩
  | busWrite width off v =>
    obtain ⟨-, rfl, -, hidle, ht⟩ := busWrite_next h
    exact .inr (.inl ⟨off, v, rfl, hidle, ht⟩)
  | engine => exact .inr (.inr (.inl ⟨rfl, h⟩))
  | reset => exact .inr (.inr (.inr ⟨rfl, by cases h; rfl⟩))

/-- The error completion is R170 as the statements write it out. -/
theorem errorCompletion_eq_errorState (code : ErrCode) (s : State) : errorCompletion code s = errorState code s := rfl

/-! ## What reads and writes leave unchanged -/

@[simp] theorem readAt_err (off : Nat) (s : State) : (readAt off s).err = s.err := by
  rw [readAt_eq]

@[simp] theorem readAt_errCode (off : Nat) (s : State) : (readAt off s).errCode = s.errCode := by
  rw [readAt_eq]

@[simp] theorem readAt_gfRes (off : Nat) (s : State) : (readAt off s).gfRes = s.gfRes := by
  rw [readAt_eq]

@[simp] theorem writeReg_gfRes (v : Word) (s : State) (r : Reg) : (writeReg v s r).gfRes = s.gfRes := by
  cases r <;> rfl

/-- R35: no host write reaches GFRES. -/
@[simp] theorem idleWrite_gfRes (off : Nat) (v : Word) (s : State) : (idleWrite off v s).gfRes = s.gfRes := by
  rcases idleWrite_cases off v s with ⟨r, -, h⟩ | ⟨-, h⟩ <;> rw [h]
  exact writeReg_gfRes v s r

theorem writeReg_errors {r : Reg} (hr : r ≠ .cmd) (v : Word) (s : State) :
    (writeReg v s r).err = s.err ∧ (writeReg v s r).errCode = s.errCode := by
  cases r with
  | cmd => exact absurd rfl hr
  | _ => exact ⟨rfl, rfl⟩

/-- R28: a write to an offset other than that of CMD keeps ERR and ERRCODE. -/
theorem idleWrite_errors {off : Nat} (hoff : off ≠ 0x004) (v : Word) (s : State) :
    (idleWrite off v s).err = s.err ∧ (idleWrite off v s).errCode = s.errCode := by
  rcases idleWrite_cases off v s with ⟨r, hfound, h⟩ | ⟨-, h⟩ <;> rw [h]
  · refine writeReg_errors ?_ v s
    rintro rfl
    exact hoff (Reg.offset_of_found hfound).symm
  · exact ⟨rfl, rfl⟩

/-! ## GFRES -/

@[simp] theorem blockCommand_gfRes (transform : Block → Block) (len : Nat) (s : State) :
    (blockCommand transform len s).gfRes = s.gfRes := by
  unfold blockCommand
  split_ifs <;> rfl

@[simp] theorem emitChunk_gfRes (block : Option Block) (s : State) : (emitChunk block s).gfRes = s.gfRes := by
  cases block <;> rfl

/-- R35: "Only GF_MUL writes it". -/
theorem exec_gfRes {i : Instr} {s t : State} (hi : i ≠ .gfMul) (h : exec i s = .next t) : t.gfRes = s.gfRes := by
  cases i with
  | keyExpand ksz =>
    simp only [exec, execKeyExpand] at h
    split_ifs at h <;> cases h <;> rfl
  | encBlock len =>
    cases h
    exact blockCommand_gfRes ..
  | decBlock len =>
    cases h
    exact blockCommand_gfRes ..
  | gfMul => exact absurd rfl hi
  | cbcEncInit ksz =>
    simp only [exec, execCbcEncInit] at h
    split_ifs at h <;> cases h <;> rfl
  | cbcEncChunk n =>
    simp only [exec, execCbcEncChunk] at h
    split_ifs at h <;> cases h <;> simp
  | cbcDecInit ksz =>
    simp only [exec, execCbcDecInit] at h
    split_ifs at h <;> cases h <;> rfl
  | cbcDecBlock len =>
    simp only [exec, execCbcDecBlock] at h
    split_ifs at h <;> cases h <;> rfl
  | zeroize =>
    cases h
    rfl

/-- R35: a turn of the engine that changes GFRES completes GF_MUL. -/
theorem engineStep_changes_gfRes {s t : State} (h : engineStep s = .next t) (hne : t.gfRes ≠ s.gfRes) :
    s.busy = true ∧ decode s.pending = some .gfMul ∧ t.gfRes = multiply s.gfa s.gfb := by
  rcases engineStep_cases s with ⟨-, e⟩ | ⟨-, -, e⟩ | ⟨hbusy, i, hdec, e⟩ <;> rw [e] at h
  · cases h
    exact absurd rfl hne
  · cases h
    exact absurd (errorCompletion_gfRes ..) hne
  · by_cases hi : i = .gfMul
    · subst hi
      cases h
      exact ⟨hbusy, hdec, rfl⟩
    · exact absurd (exec_gfRes hi h) hne

/-! ## ERR and ERRCODE -/

/-- R28: a completion ends in the error completion of a real code or keeps ERR and ERRCODE. -/
theorem engineStep_errors {s : State} (hbusy : s.busy = true) :
    ∃ t, engineStep s = .next t ∧
      ((t.err = s.err ∧ t.errCode = s.errCode) ∨ (∃ code, code ≠ .none ∧ t = errorState code s)) := by
  rcases engineStep_cases s with ⟨hidle, -⟩ | ⟨-, -, e⟩ | ⟨-, i, -, e⟩
  · simp [hbusy] at hidle
  · exact ⟨_, e, .inr ⟨_, by decide, errorCompletion_eq_errorState ..⟩⟩
  · rcases exec_cases i s with ⟨code, hcode, h⟩ | ⟨t, h, -, herr, hcode⟩
    · exact ⟨_, e.trans h, .inr ⟨code, hcode, errorCompletion_eq_errorState ..⟩⟩
    · exact ⟨t, e.trans h, .inl ⟨herr, hcode⟩⟩

/-- R28: an event that changes ERR or ERRCODE is a completion, a reset or an issue. -/
theorem applyEvent_changes_errors {e : Event} {s t : State} (h : applyEvent e s = .next t)
    (hne : t.err ≠ s.err ∨ t.errCode ≠ s.errCode) :
    (e = .engine ∧ s.busy = true) ∨ e = .reset ∨
      (∃ v, e = .busWrite .word 0x004 v ∧ s.busy = false ∧ t.err = false ∧ t.errCode = .none) := by
  rcases applyEvent_next h with ⟨off, -, rfl⟩ | ⟨off, v, rfl, hidle, rfl⟩ | ⟨rfl, hstep⟩ | ⟨rfl, -⟩
  · simp at hne
  · by_cases hoff : off = 0x004
    · subst hoff
      rw [idleWrite_of_found Reg.ofOffset_cmd]
      exact .inr (.inr ⟨v, rfl, hidle, rfl, rfl⟩)
    · simp [idleWrite_errors hoff] at hne
  · rcases engineStep_cases s with ⟨-, e⟩ | ⟨hbusy, -⟩ | ⟨hbusy, -⟩
    · cases e.symm.trans hstep
      simp at hne
    · exact .inl ⟨rfl, hbusy⟩
    · exact .inl ⟨rfl, hbusy⟩
  · exact .inr (.inl rfl)

/-! ## The obligations -/

/-- Settles O14: the write to CMD is `issue` while BUSY = 0 and the hazard while BUSY = 1. -/
theorem issueChangesWhatR24Names : Obligations.IssueChangesWhatR24Names := by
  unfold Obligations.IssueChangesWhatR24Names
  refine ⟨fun v s hidle => busWrite_cmd_idle v hidle, fun v s hbusy => ?_, fun s => ?_, rfl⟩
  · exact busWrite_good_busy (by decide) (by decide) v hbusy
  · rw [busRead_good (by decide) (by decide), readAt_cmd]

/-- Settles O21, by the cases of an event and, for the engine's turn, of the command it completes. -/
theorem onlyGfMulAndResetWriteGfres : Obligations.OnlyGfMulAndResetWriteGfres := by
  unfold Obligations.OnlyGfMulAndResetWriteGfres
  refine ⟨fun e s t h hne => ?_, fun s => ?_, fun v s hidle => ?_⟩
  · rcases applyEvent_next h with ⟨off, -, rfl⟩ | ⟨off, v, -, -, rfl⟩ | ⟨rfl, hstep⟩ | ⟨rfl, -⟩
    · exact absurd (readAt_gfRes ..) hne
    · exact absurd (idleWrite_gfRes ..) hne
    · exact .inl ⟨rfl, engineStep_changes_gfRes hstep hne⟩
    · exact .inr rfl
  · rw [idleRead_of_found Reg.ofOffset_gfRes, readReg]
    exact ⟨zeroExtend_byte_low s.gfRes, zeroExtend_byte_high s.gfRes⟩
  · rw [busWrite_good_idle (by decide) (by decide) v hidle, idleWrite_of_found Reg.ofOffset_gfRes, writeReg]

/-- Settles O51, by the cases of an event and the two ways a completion ends. -/
theorem errorFlagsHoldUntilTheNextIssue : Obligations.ErrorFlagsHoldUntilTheNextIssue := by
  unfold Obligations.ErrorFlagsHoldUntilTheNextIssue
  refine ⟨fun e s t h hne => applyEvent_changes_errors h hne, fun v s hidle => ?_, fun s hbusy => engineStep_errors hbusy⟩
  exact ⟨issue v s, busWrite_cmd_idle v hidle, issue_err v s, issue_errCode v s⟩

end Sys2Proof.Machine
end

section
/-! # Proofs about the byte lanes of the register words (20_memory.md rule R52)

A word is determined by its four lanes, so packing and unpacking are compared lane by lane. -/

namespace Sys2Proof.Machine

/-! ## The lanes of one word -/

/-- R52: words with the same four lanes are equal. -/
theorem word_ext_lanes {v u : Word} (h : ∀ j < 4, laneByte v j = laneByte u j) : v = u := by
  refine BitVec.eq_of_getLsbD_eq fun i hi => ?_
  have hlane := congrArg (·.getLsbD (i % 8)) (h (i / 8) (by omega))
  have hbit : 8 * (i / 8) + i % 8 = i := by omega
  simpa [laneByte, Nat.mod_lt, hbit] using hlane

@[simp] theorem unpackWord_getElem (v : Word) (j : Nat) (hj : j < 4) : (unpackWord v)[j] = laneByte v j := by
  interval_cases j <;> rfl

theorem laneByte_or (v u : Word) (j : Nat) : laneByte (v ||| u) j = laneByte v j ||| laneByte u j :=
  BitVec.extractLsb'_or

/-- R52: a byte shifted to lane `k` fills that lane and leaves the others 0. -/
theorem laneByte_shifted (b : Byte) {k j : Nat} (hj : j < 4) :
    laneByte (b.zeroExtend 32 <<< (8 * k)) j = if j = k then b else 0#8 := by
  refine BitVec.eq_of_getLsbD_eq fun i hi => ?_
  rcases Nat.lt_trichotomy j k with hlt | rfl | hgt
  · have hbelow : 8 * j + i < 8 * k := by omega
    simp [laneByte, hbelow, hlt.ne]
  · have hbit : 8 * j + i < 32 := by omega
    simp [laneByte, hi, hbit]
  · have habove : 8 ≤ 8 * j + i - 8 * k := by omega
    simp [laneByte, hgt.ne', habove]

@[simp] theorem laneByte_packWord (b : KeyWord) (j : Nat) (hj : j < 4) : laneByte (packWord b) j = b[j] := by
  have hpack : packWord b = b[0].zeroExtend 32 <<< (8 * 0) ||| b[1].zeroExtend 32 <<< (8 * 1) |||
      b[2].zeroExtend 32 <<< (8 * 2) ||| b[3].zeroExtend 32 <<< (8 * 3) := by simp [packWord]
  rw [hpack]
  simp only [laneByte_or, laneByte_shifted _ hj]
  interval_cases j <;> simp

theorem packWord_unpackWord (v : Word) : packWord (unpackWord v) = v :=
  word_ext_lanes fun j hj => by rw [laneByte_packWord _ j hj, unpackWord_getElem v j hj]

theorem unpackWord_packWord (b : KeyWord) : unpackWord (packWord b) = b := by
  ext j hj : 1
  rw [unpackWord_getElem _ j hj, laneByte_packWord b j hj]

/-! ## The lanes of the register groups -/

/-- R52: lane `j` of word `k` of `words(B)` is byte 4k+j. -/
theorem laneByte_wordsOf (b : Block) (k j : Nat) (hk : k < 4) (hj : j < 4) :
    laneByte (wordsOf b)[k] j = b[4 * k + j] := by
  have hword : (wordsOf b)[k] = packWord #v[b[4 * k], b[4 * k + 1], b[4 * k + 2], b[4 * k + 3]] := by simp [wordsOf]
  rw [hword, laneByte_packWord _ j hj]
  interval_cases j <;> rfl

/-- R52: byte 4k+j of a register group is lane `j` of its word `k`. -/
theorem bytes16_lane (r : Vector Word 4) (k j : Nat) (hk : k < 4) (hj : j < 4) :
    (bytes16 r)[4 * k + j] = laneByte r[k] j := by
  have hdiv : (4 * k + j) / 4 = k := by omega
  have hmod : (4 * k + j) % 4 = j := by omega
  simp [hdiv, hmod]

/-- R38: byte 4k+j of the key is lane `j` of KEY[k]. -/
theorem keyBytes_lane (key : Vector Word 8) (k j : Nat) (hk : k < 8) (hj : j < 4) :
    (keyBytes key)[4 * k + j] = laneByte key[k] j := by
  have hdiv : (4 * k + j) / 4 = k := by omega
  have hmod : (4 * k + j) % 4 = j := by omega
  simp [keyBytes, hdiv, hmod]

/-- R12: `bytesN` holds the key bytes below `n`. -/
theorem bytesN_getElem? (key : Vector Word 8) {n i : Nat} (hn : i < n) (hi : i < 32) :
    (bytesN key n)[i]? = some (keyBytes key)[i] := by
  simp [bytesN, List.getElem?_take_of_lt hn, hi]

theorem bytes16_wordsOf (b : Block) : bytes16 (wordsOf b) = b := by
  ext i hi : 1
  have hbyte : 4 * (i / 4) + i % 4 = i := by omega
  rw [bytes16_getElem _ i hi, laneByte_wordsOf b (i / 4) (i % 4) (by omega) (by omega)]
  simp [hbyte]

theorem wordsOf_bytes16 (r : Vector Word 4) : wordsOf (bytes16 r) = r := by
  ext k hk : 1
  refine word_ext_lanes fun j hj => ?_
  rw [laneByte_wordsOf _ k j hk hj, bytes16_lane r k j hk hj]

/-! ## The obligation -/

/-- Settles O18, lane by lane. -/
theorem byteLanesAreLittleEndian : Obligations.ByteLanesAreLittleEndian := by
  unfold Obligations.ByteLanesAreLittleEndian
  refine ⟨fun r k j => bytes16_lane r k j k.isLt j.isLt, fun b k j => laneByte_wordsOf b k j k.isLt j.isLt,
    fun key n k j hn => ?_, fun v j => unpackWord_getElem v j j.isLt,
    bytes16_wordsOf, wordsOf_bytes16, packWord_unpackWord, unpackWord_packWord⟩
  rw [bytesN_getElem? key hn (by omega), keyBytes_lane key k j k.isLt j.isLt]
  rfl

end Sys2Proof.Machine
end

section
/-! # Proofs about the command word (30_encoding.md rules R70 to R78, R83)

A word is determined by its five fields, so a row of the opcode table is compared with it field by field: the row fixes
OPC, the reserved fields, and whichever of LEN and KSZ its command does not use. The words no row selects are then those
of R78. -/

namespace Sys2Proof.Machine

open Sys2Proof.Claims

/-! ## The fields of a word -/

/-- Words with the same field have the same bits in it. -/
theorem getLsbD_eq_of_field {v u : Word} {lo n i : Nat} (h : v.extractLsb' lo n = u.extractLsb' lo n)
    (hlo : lo ≤ i) (hhi : i < lo + n) : v.getLsbD i = u.getLsbD i := by
  have hbit := congrArg (·.getLsbD (i - lo)) h
  have hlt : i - lo < n := by omega
  simpa [hlt, Nat.add_sub_cancel' hlo] using hbit

/-- R70: a word is its fields OPC, LEN, RSV0, KSZ and RSV1. -/
theorem word_eq_iff_fields {v u : Word} : v = u ↔
    v.extractLsb' 0 8 = u.extractLsb' 0 8 ∧ v.extractLsb' 8 5 = u.extractLsb' 8 5 ∧
    v.extractLsb' 13 3 = u.extractLsb' 13 3 ∧ v.extractLsb' 16 2 = u.extractLsb' 16 2 ∧
    v.extractLsb' 18 14 = u.extractLsb' 18 14 := by
  refine ⟨fun h => by simp [h], fun ⟨hopc, hlen, hrsv0, hksz, hrsv1⟩ => BitVec.eq_of_getLsbD_eq fun i hi => ?_⟩
  rcases Nat.lt_or_ge i 8 with h8 | h8
  · exact getLsbD_eq_of_field hopc (Nat.zero_le i) h8
  rcases Nat.lt_or_ge i 13 with h13 | h13
  · exact getLsbD_eq_of_field hlen h8 h13
  rcases Nat.lt_or_ge i 16 with h16 | h16
  · exact getLsbD_eq_of_field hrsv0 h13 h16
  rcases Nat.lt_or_ge i 18 with h18 | h18
  · exact getLsbD_eq_of_field hksz h16 h18
  · exact getLsbD_eq_of_field hrsv1 h18 hi

/-- A field under a mask that covers it is the field. -/
theorem field_and_of_ones (v : Word) {mask : Word} {lo n : Nat} (h : mask.extractLsb' lo n = BitVec.allOnes n) :
    (v &&& mask).extractLsb' lo n = v.extractLsb' lo n := by
  rw [BitVec.extractLsb'_and, h, BitVec.and_allOnes]

/-- A field under a mask that leaves it out is 0. -/
theorem field_and_of_zeros (v : Word) {mask : Word} {lo n : Nat} (h : mask.extractLsb' lo n = 0#n) :
    (v &&& mask).extractLsb' lo n = 0#n := by
  rw [BitVec.extractLsb'_and, h, BitVec.and_zero]

/-- A field above bit 7 of a byte read as a word is 0. -/
theorem zeroExtend_byte_field (b : Byte) {lo n : Nat} (h : 8 ≤ lo) : (b.zeroExtend 32).extractLsb' lo n = 0#n := by
  ext k hk
  have habove : 8 ≤ lo + k := by omega
  simp [b.getLsbD_of_ge _ habove]

/-! ## The rows of the opcode table -/

/-- R74: no reserved bit of the word is set. -/
def reservedClear (v : Word) : Prop := v.extractLsb' 13 3 = 0#3 ∧ v.extractLsb' 18 14 = 0#14

/-- R76: the row of a command that uses KSZ. -/
def kszRow (op : Opcode) (opc : Byte) : OpRow := ⟨op, opc.zeroExtend 32, 0xFFFCFFFF#32⟩

/-- R76: the row of a command that uses LEN. -/
def lenRow (op : Opcode) (opc : Byte) : OpRow := ⟨op, opc.zeroExtend 32, 0xFFFFE0FF#32⟩

/-- R76: the row of a command that uses neither field. -/
def bareRow (op : Opcode) (opc : Byte) : OpRow := ⟨op, opc.zeroExtend 32, 0xFFFFFFFF#32⟩

/-- R76: the opcode table, each row by the field its command uses. -/
theorem opRows_eq : opRows =
    [kszRow .keyExpand 0x01#8, lenRow .encBlock 0x02#8, lenRow .decBlock 0x03#8, bareRow .gfMul 0x04#8,
     kszRow .cbcEncInit 0x05#8, lenRow .cbcEncChunk 0x06#8, kszRow .cbcDecInit 0x07#8, lenRow .cbcDecBlock 0x08#8,
     bareRow .zeroize 0x09#8] := rfl

/-- R74, R76: a row whose mask covers OPC and the reserved bits fixes them, and of LEN and KSZ what its mask covers. -/
theorem selects_iff_fields (op : Opcode) (opc : Byte) {mask : Word} (v : Word)
    (hopc : mask.extractLsb' 0 8 = BitVec.allOnes 8) (hrsv0 : mask.extractLsb' 13 3 = BitVec.allOnes 3)
    (hrsv1 : mask.extractLsb' 18 14 = BitVec.allOnes 14) :
    (OpRow.mk op (opc.zeroExtend 32) mask).selects v = true ↔
      v.extractLsb' 0 8 = opc ∧ (v &&& mask).extractLsb' 8 5 = 0#5 ∧ (v &&& mask).extractLsb' 16 2 = 0#2 ∧
      reservedClear v := by
  have habove {lo n : Nat} (h : 8 ≤ lo) := zeroExtend_byte_field opc (n := n) h
  rw [OpRow.selects, beq_iff_eq, word_eq_iff_fields, zeroExtend_byte_low, habove (lo := 8) (by decide),
    habove (lo := 13) (by decide), habove (lo := 16) (by decide), habove (lo := 18) (by decide),
    field_and_of_ones v hopc, field_and_of_ones v hrsv0, field_and_of_ones v hrsv1, reservedClear]
  tauto

theorem kszRow_selects (op : Opcode) (opc : Byte) (v : Word) : (kszRow op opc).selects v = true ↔
    v.extractLsb' 0 8 = opc ∧ v.extractLsb' 8 5 = 0#5 ∧ reservedClear v := by
  rw [kszRow, selects_iff_fields op opc v rfl rfl rfl, field_and_of_ones v (lo := 8) rfl,
    field_and_of_zeros v (lo := 16) rfl, eq_self, true_and]

theorem lenRow_selects (op : Opcode) (opc : Byte) (v : Word) : (lenRow op opc).selects v = true ↔
    v.extractLsb' 0 8 = opc ∧ v.extractLsb' 16 2 = 0#2 ∧ reservedClear v := by
  rw [lenRow, selects_iff_fields op opc v rfl rfl rfl, field_and_of_zeros v (lo := 8) rfl,
    field_and_of_ones v (lo := 16) rfl, eq_self, true_and]

theorem bareRow_selects (op : Opcode) (opc : Byte) (v : Word) : (bareRow op opc).selects v = true ↔
    v.extractLsb' 0 8 = opc ∧ v.extractLsb' 8 5 = 0#5 ∧ v.extractLsb' 16 2 = 0#2 ∧ reservedClear v := by
  rw [bareRow, selects_iff_fields op opc v rfl rfl rfl, field_and_of_ones v (lo := 8) rfl,
    field_and_of_ones v (lo := 16) rfl]

/-! ## The illegal words -/

/-- R77: a word is illegal when it selects no row. -/
theorem decode_eq_none_iff (v : Word) : decode v = none ↔ ∀ r ∈ opRows, ¬ r.selects v = true := by
  simp [decode, List.find?_eq_none]

/-- R71, R75: the nine values of OPC that select a command. -/
def assignedOpcs : List Byte := [0x01#8, 0x02#8, 0x03#8, 0x04#8, 0x05#8, 0x06#8, 0x07#8, 0x08#8, 0x09#8]

theorem not_mem_assignedOpcs_iff (opc : Byte) : opc ∉ assignedOpcs ↔ opc = 0#8 ∨ 0x0A ≤ opc.toNat := by
  revert opc; decide

/-- R78: a word selects no row when its OPC is unassigned, a reserved bit is set, or a field its command does not use is
nonzero. -/
theorem selects_no_row_iff (v : Word) : (∀ r ∈ opRows, ¬ r.selects v = true) ↔
    (v.extractLsb' 0 8 = 0#8 ∨ 0x0A ≤ (v.extractLsb' 0 8).toNat) ∨ ¬ reservedClear v ∨
    (v.extractLsb' 16 2 ≠ 0#2 ∧ v.extractLsb' 0 8 ∈ [0x02#8, 0x03#8, 0x04#8, 0x06#8, 0x08#8, 0x09#8]) ∨
    (v.extractLsb' 8 5 ≠ 0#5 ∧ v.extractLsb' 0 8 ∈ [0x01#8, 0x04#8, 0x05#8, 0x07#8, 0x09#8]) := by
  simp only [opRows_eq, List.forall_mem_cons, kszRow_selects, lenRow_selects, bareRow_selects]
  generalize v.extractLsb' 0 8 = opc
  rw [← not_mem_assignedOpcs_iff]
  by_cases hopc : opc ∈ assignedOpcs
  · simp only [assignedOpcs, List.mem_cons, List.not_mem_nil, or_false] at hopc
    rcases hopc with rfl | rfl | rfl | rfl | rfl | rfl | rfl | rfl | rfl <;> simp [assignedOpcs] <;> tauto
  · have hne : ∀ k ∈ assignedOpcs, opc ≠ k := fun k hk h => hopc (h ▸ hk)
    simp only [assignedOpcs, List.forall_mem_cons] at hne
    simp [hopc, hne]

/-- R78: an illegal word ends in the error completion IllegalCommand, whatever the rest of the state. -/
theorem engineStep_illegal {s : State} (hbusy : s.busy = true) (hill : decode s.pending = none) :
    engineStep s = .next (errorState .illegalCommand s) := by
  rcases engineStep_cases s with ⟨hidle, -⟩ | ⟨-, -, e⟩ | ⟨-, i, hdec, -⟩
  · simp [hbusy] at hidle
  · rw [e, errorCompletion_eq_errorState]
  · simp [hill] at hdec

/-! ## The obligations -/

/-- Settles O3: a word selects no row exactly as R78 lists, and an illegal word ends in its error completion. -/
theorem illegalWordsAndTheirCompletion : Obligations.IllegalWordsAndTheirCompletion := by
  unfold Obligations.IllegalWordsAndTheirCompletion
  refine ⟨fun v => ?_, fun s hbusy hill => engineStep_illegal hbusy hill⟩
  rw [decode_eq_none_iff, selects_no_row_iff, reservedClear, not_and_or]

/-- Settles O5, by assembling each closed line and comparing the words. -/
theorem pseudoInstructionsSpellTheirWords : Obligations.PseudoInstructionsSpellTheirWords := by
  unfold Obligations.PseudoInstructionsSpellTheirWords
  decide

end Sys2Proof.Machine
end

section
/-! # Proofs about the multiplier's command (40_galois.md rule R92)

GF_MUL uses neither LEN nor KSZ, so the mask of its row is all ones: the row selects one word, and every other word with
its opcode selects no row. -/

namespace Sys2Proof.Machine

open Sys2Proof.Claims

/-- R77: a command is decoded from a row its word selects. -/
theorem exists_row_of_decode {v : Word} {i : Instr} (h : decode v = some i) :
    ∃ r ∈ opRows, r.selects v = true ∧ r.opcode.toInstr v = i := by
  obtain ⟨r, hfind, hinstr⟩ := Option.map_eq_some_iff.mp h
  have hsel : r.selects v = true := by simpa using List.find?_some hfind
  exact ⟨r, List.mem_of_find?_eq_some hfind, hsel, hinstr⟩

/-- R76: a row of a command without LEN and KSZ selects the word that is its opcode, and no other. -/
theorem bareRow_selects_iff_eq (op : Opcode) (opc : Byte) (v : Word) :
    (bareRow op opc).selects v = true ↔ v = opc.zeroExtend 32 := by
  rw [bareRow, OpRow.selects, beq_iff_eq, show 0xFFFFFFFF#32 = BitVec.allOnes 32 from rfl, BitVec.and_allOnes]

/-- R77: only the opcode of GF_MUL reads as GF_MUL. -/
theorem opcode_eq_gfMul_of_toInstr {op : Opcode} {v : Word} (h : op.toInstr v = .gfMul) : op = .gfMul := by
  cases op <;> cases h
  rfl

/-- R76: GF_MUL has one row. -/
theorem row_of_gfMul : ∀ r ∈ opRows, r.opcode = .gfMul → r = bareRow .gfMul 0x04#8 := by decide

/-- R92: the one word of GF_MUL. -/
theorem decode_eq_gfMul_iff (v : Word) : decode v = some .gfMul ↔ v = 0x00000004#32 := by
  constructor
  · intro h
    obtain ⟨r, hr, hsel, hinstr⟩ := exists_row_of_decode h
    rw [row_of_gfMul r hr (opcode_eq_gfMul_of_toInstr hinstr)] at hsel
    exact (bareRow_selects_iff_eq ..).mp hsel
  · rintro rfl
    decide

/-- R78, R92: the opcode of GF_MUL with any other bit set is illegal. -/
theorem decode_gfMul_opcode_eq_none {v : Word} (hopc : v.extractLsb' 0 8 = 0x04#8) (hne : v ≠ 0x00000004#32) :
    decode v = none := by
  rw [decode_eq_none_iff, selects_no_row_iff, hopc]
  by_contra hlegal
  obtain ⟨⟨hrsv0, hrsv1⟩, hksz, hlen⟩ : reservedClear v ∧ v.extractLsb' 16 2 = 0#2 ∧ v.extractLsb' 8 5 = 0#5 := by
    simpa using hlegal
  exact hne (word_eq_iff_fields.mpr ⟨hopc, hlen, hrsv0, hksz, hrsv1⟩)

/-- R92: GF_MUL answers the product in every stream state. -/
theorem exec_gfMul (s : State) :
    exec .gfMul s = .next { s with gfRes := multiply s.gfa s.gfb, busy := false } := rfl

/-- Settles O20, from the one word GF_MUL's row selects and the illegality of its opcode's other words. -/
theorem gfMulWritesTheProduct : Obligations.GfMulWritesTheProduct := by
  unfold Obligations.GfMulWritesTheProduct
  refine ⟨exec_gfMul, decode_eq_gfMul_iff, fun s hbusy hopc hne => ?_, by decide⟩
  exact engineStep_illegal hbusy (decode_gfMul_opcode_eq_none hopc hne)

end Sys2Proof.Machine
end

section
/-! # Proofs about the substitution tables (41_tables.md rules R95, R97)

That InvSBox undoes SBox is read off the two tables. That SBox undoes InvSBox is not looked up again: a map of the bytes
with a left inverse is a permutation, so its left inverse is its right inverse as well. -/

namespace Sys2Proof.Machine

open Sys2Proof.Claims

/-- R97: `InvSBox[SBox[x]] = x`, entry by entry. -/
@[simp] theorem invSbox_sbox (x : Byte) : invSbox (sbox x) = x := by
  revert x; decide

/-- R95: SBox is a permutation of the bytes. -/
theorem sbox_bijective : Function.Bijective sbox :=
  Finite.injective_iff_bijective.mp (Function.LeftInverse.injective invSbox_sbox)

/-- R97: `SBox[InvSBox[y]] = y`, because SBox is a permutation. -/
@[simp] theorem sbox_invSbox (y : Byte) : sbox (invSbox y) = y :=
  Function.LeftInverse.rightInverse_of_surjective invSbox_sbox sbox_bijective.surjective y

/-- Settles O24, by the entries of the tables one way round and by SBox being a permutation the other. -/
theorem substitutionTablesAreInverse : Obligations.SubstitutionTablesAreInverse := by
  unfold Obligations.SubstitutionTablesAreInverse
  exact ⟨invSbox_sbox, sbox_invSbox⟩

end Sys2Proof.Machine
end

section
/-! # Proofs about the key schedule (42_key_schedule.md rules R102 to R105)

The recurrence of R102 is read off the list that `extendWords` builds: a word is `nextWord` of the words before it, and
those are never changed by the words after it. The W store holds that list packed, so its words obey the same recurrence;
and the list starts from the key's first 4*Nk bytes, so nothing else enters the store. -/

namespace Sys2Proof.Machine

open Sys2Proof.Claims

/-! ## The list of key-schedule words -/

theorem extendWords_add (nk m n : Nat) (w : List KeyWord) :
    extendWords nk (m + n) w = extendWords nk n (extendWords nk m w) := by
  induction m generalizing w with
  | zero => rw [Nat.zero_add, extendWords]
  | succ m ih => rw [Nat.succ_add, extendWords, extendWords, ih]

/-- A longer expansion holds the words of a shorter one. -/
theorem wordAt_extendWords_of_le {nk m n j : Nat} {w : List KeyWord} (hmn : m ≤ n) (hj : j < w.length + m) :
    wordAt (extendWords nk n w) j = wordAt (extendWords nk m w) j := by
  obtain ⟨k, rfl⟩ := Nat.exists_eq_add_of_le hmn
  rw [extendWords_add, wordAt_extendWords_of_lt _ _ _ _ (by simpa using hj)]

/-- R102: the recurrence, with both words it reads taken from the finished list. -/
theorem wordAt_extendWords_recurrence {nk n i : Nat} {w : List KeyWord} (hnk : 0 < nk) (hlen : w.length = nk)
    (hlo : nk ≤ i) (hhi : i < nk + n) :
    wordAt (extendWords nk n w) i = xorBytes (wordAt (extendWords nk n w) (i - nk))
      (scheduleTemp nk i (wordAt (extendWords nk n w) (i - 1))) := by
  have hearlier (j : Nat) (hj : j < i) :
      wordAt (extendWords nk n w) j = wordAt (extendWords nk (i - nk) w) j :=
    wordAt_extendWords_of_le (by omega) (by omega)
  have hcut : (extendWords nk (i - nk) w).length = i := by
    rw [extendWords_length, hlen]
    omega
  rw [wordAt_extendWords nk n i w (by omega) (by omega), hlen, nextWord, hcut, hearlier (i - nk) (by omega),
    hearlier (i - 1) (by omega)]

/-! ## The key's bytes and words -/

/-- R73: a key size other than 3 has at most 8 key words. -/
theorem nkOf_le {ksz : BitVec 2} (hksz : ksz ≠ 3#2) : nkOf ksz ≤ 8 := by
  revert ksz
  decide

theorem nkOf_pos (ksz : BitVec 2) : 0 < nkOf ksz := by
  rw [nkOf]
  omega

theorem bytesN_length (key : Vector Word 8) {n : Nat} (hn : n ≤ 32) : (bytesN key n).length = n := by
  simp [bytesN, hn]

/-- R38: the first 4*Nk key bytes are those of the first Nk key words. -/
theorem bytesN_congr {key key' : Vector Word 8} {nk : Nat} (hnk : nk ≤ 8)
    (h : ∀ k : Fin 8, k.val < nk → key[k] = key'[k]) : bytesN key (4 * nk) = bytesN key' (4 * nk) := by
  refine List.ext_getElem (by rw [bytesN_length _ (by omega), bytesN_length _ (by omega)]) fun i hi _ => ?_
  rw [bytesN_length _ (by omega)] at hi
  have hword : key[i / 4] = key'[i / 4] := h ⟨i / 4, by omega⟩ (Nat.div_lt_of_lt_mul hi)
  simp [bytesN, keyBytes, hword]

theorem bytesN_getD_lane (key : Vector Word 8) {n k j : Nat} (hn : 4 * k + j < n) (hk : k < 8) (hj : j < 4) :
    (bytesN key n).getD (4 * k + j) 0#8 = laneByte key[k] j := by
  rw [List.getD, bytesN_getElem? key hn (by omega), keyBytes_lane key k j hk hj]
  rfl

/-- R102: word `i < Nk` of a key's byte list is its bytes 4i..4i+3. -/
theorem wordAt_keyWords (key : List Byte) {nk i : Nat} (hi : i < nk) :
    wordAt (keyWords nk key) i = #v[key.getD (4 * i) 0#8, key.getD (4 * i + 1) 0#8, key.getD (4 * i + 2) 0#8,
      key.getD (4 * i + 3) 0#8] := by
  simp [wordAt, keyWords, hi]

/-- R102: the expansion starts from the words of the KEY registers. -/
theorem wordAt_keyWords_bytesN (key : Vector Word 8) {nk i : Nat} (hi : i < nk) (hi8 : i < 8) :
    wordAt (keyWords nk (bytesN key (4 * nk))) i = unpackWord key[i] := by
  have hlane (j : Nat) (hj : j < 4) : (bytesN key (4 * nk)).getD (4 * i + j) 0#8 = laneByte key[i] j :=
    bytesN_getD_lane key (by omega) hi8 hj
  have hfirst : (bytesN key (4 * nk)).getD (4 * i) 0#8 = laneByte key[i] 0 := hlane 0 (by decide)
  rw [wordAt_keyWords _ hi, unpackWord, hfirst, hlane 1 (by decide), hlane 2 (by decide), hlane 3 (by decide)]

/-- R102: `KeyExpansion` of the key bytes a key size reads extends that many key words. -/
theorem keyExpansion_bytesN (key : Vector Word 8) {nk : Nat} (hnk : nk ≤ 8) :
    keyExpansion (bytesN key (4 * nk)) =
      extendWords nk (4 * (nrOf nk + 1) - nk) (keyWords nk (bytesN key (4 * nk))) := by
  have hlen : (bytesN key (4 * nk)).length / 4 = nk := by
    rw [bytesN_length key (by omega)]
    omega
  rw [keyExpansion, hlen]

/-! ## The W store after an expansion -/

/-- R104: a word of the expansion stands in the store, packed. -/
theorem expandedStore_getElem_of_lt (ksz : BitVec 2) (key : Vector Word 8) {i : Nat} (h60 : i < 60)
    (hi : i < 4 * (nrOf (nkOf ksz) + 1)) :
    (expandedStore ksz key)[i] = packWord (wordAt (keyExpansion (bytesN key (4 * nkOf ksz))) i) := by
  simp [expandedStore, hi]

/-- R104: beyond the expansion the store is 0. -/
theorem expandedStore_getElem_of_le (ksz : BitVec 2) (key : Vector Word 8) {i : Nat} (h60 : i < 60)
    (hi : 4 * (nrOf (nkOf ksz) + 1) ≤ i) : (expandedStore ksz key)[i] = 0#32 := by
  simp [expandedStore, hi.not_gt]

/-- R102: the store starts with the key's words. -/
theorem expandedStore_getElem_of_lt_nk {ksz : BitVec 2} (hksz : ksz ≠ 3#2) (key : Vector Word 8) {i : Nat} (h8 : i < 8)
    (hi : i < nkOf ksz) : (expandedStore ksz key)[i] = key[i] := by
  rw [expandedStore_getElem_of_lt ksz key (by omega) (by rw [nrOf]; omega), keyExpansion_bytesN key (nkOf_le hksz),
    wordAt_extendWords_of_lt _ _ _ _ (by simpa using hi), wordAt_keyWords_bytesN key hi h8, packWord_unpackWord]

/-- R113: the stored words are the words of the expansion. -/
theorem wordAt_storedWords_expandedStore {ksz : BitVec 2} (hksz : ksz ≠ 3#2) (key : Vector Word 8) {i : Nat}
    (hi : i < 4 * (nrOf (nkOf ksz) + 1)) :
    wordAt (storedWords (expandedStore ksz key)) i = wordAt (keyExpansion (bytesN key (4 * nkOf ksz))) i := by
  have h60 : i < 60 := by
    have := nkOf_le hksz
    rw [nrOf] at hi
    omega
  rw [wordAt_storedWords _ i h60, expandedStore_getElem_of_lt ksz key h60 hi, unpackWord_packWord]

/-- R102: the stored words obey the recurrence. -/
theorem wordAt_storedWords_expandedStore_recurrence {ksz : BitVec 2} (hksz : ksz ≠ 3#2) (key : Vector Word 8) {i : Nat}
    (hlo : nkOf ksz ≤ i) (hhi : i < 4 * (nrOf (nkOf ksz) + 1)) :
    wordAt (storedWords (expandedStore ksz key)) i =
      xorBytes (wordAt (storedWords (expandedStore ksz key)) (i - nkOf ksz))
        (scheduleTemp (nkOf ksz) i (wordAt (storedWords (expandedStore ksz key)) (i - 1))) := by
  have hpos := nkOf_pos ksz
  simp only [wordAt_storedWords_expandedStore hksz key hhi,
    wordAt_storedWords_expandedStore hksz key (show i - nkOf ksz < _ by omega),
    wordAt_storedWords_expandedStore hksz key (show i - 1 < _ by omega), keyExpansion_bytesN key (nkOf_le hksz)]
  exact wordAt_extendWords_recurrence hpos (keyWords_length ..) hlo (by omega)

/-- R105: keys that agree on the words a key size reads expand to the same store. -/
theorem expandedStore_congr {ksz : BitVec 2} (hksz : ksz ≠ 3#2) {key key' : Vector Word 8}
    (h : ∀ k : Fin 8, k.val < nkOf ksz → key[k] = key'[k]) : expandedStore ksz key = expandedStore ksz key' := by
  rw [expandedStore, expandedStore, bytesN_congr (nkOf_le hksz) h]

/-! ## The commands that expand -/

/-- R99: the number of rounds fits in NR. -/
theorem expandInto_nr_toNat {ksz : BitVec 2} (hksz : ksz ≠ 3#2) (s : State) :
    (expandInto ksz s).nr.toNat = nrOf (nkOf ksz) := by
  have := nkOf_le hksz
  rw [expandInto_nr, BitVec.toNat_ofNat, nrOf, Nat.mod_eq_of_lt (by omega)]

/-- R104: KEY_EXPAND that passes its checks. -/
theorem exec_keyExpand_idle {ksz : BitVec 2} {s : State} (hidle : s.stream = .idle) (hksz : ksz ≠ 3#2) :
    exec (.keyExpand ksz) s = .next (complete (expandInto ksz s)) := by
  simp [exec, execKeyExpand, hidle, hksz]

/-- R131: CBC_ENC_INIT that passes its checks. -/
theorem exec_cbcEncInit_idle {ksz : BitVec 2} {s : State} (hidle : s.stream = .idle) (hksz : ksz ≠ 3#2) :
    exec (.cbcEncInit ksz) s = .next (complete
      { expandInto ksz s with cv := s.iv, dout := s.iv, outLen := 16#5, stream := .enc, first := true }) := by
  simp [exec, execCbcEncInit, hidle, hksz]

/-! ## The obligations -/

/-- Settles O26, from the words of the expanded store: the key's words, the recurrence, and 0 beyond it. -/
theorem keyExpandFillsTheStore : Obligations.KeyExpandFillsTheStore := by
  unfold Obligations.KeyExpandFillsTheStore
  intro ksz s hidle hksz
  have hnr : (complete (expandInto ksz s)).nr.toNat = nrOf (nkOf ksz) := expandInto_nr_toNat hksz s
  refine ⟨complete (expandInto ksz s), exec_keyExpand_idle hidle hksz, rfl, by rintro rfl; rfl, by rintro rfl; rfl,
    by rintro rfl; rfl, fun i h8 hi => ?_, fun i hlo hhi => ?_, fun i h60 hi => ?_⟩
  · exact expandedStore_getElem_of_lt_nk hksz s.key h8 hi
  · exact wordAt_storedWords_expandedStore_recurrence hksz s.key hlo (hnr ▸ hhi)
  · exact expandedStore_getElem_of_le ksz s.key h60 (hnr ▸ hi)

/-- Settles O27: both commands leave the expanded store of their KEY, which reads the first Nk key words alone. -/
theorem expansionDependsOnTheKeyAlone : Obligations.ExpansionDependsOnTheKeyAlone := by
  unfold Obligations.ExpansionDependsOnTheKeyAlone
  intro ksz s s' hksz hkey
  have hstore : expandedStore ksz s.key = expandedStore ksz s'.key := expandedStore_congr hksz hkey
  exact ⟨hstore, fun hidle hidle' =>
    ⟨_, _, exec_keyExpand_idle hidle hksz, exec_cbcEncInit_idle hidle' hksz, hstore⟩⟩

end Sys2Proof.Machine
end

section
/-! # Proofs about the block transform (43_block_transform.md rules R110 to R122)

Each step of a round has an inverse of its own. MixColumns applied four times is the identity and InvMixColumns is
MixColumns applied three times, so each undoes the other. A middle round of one transform then undoes a middle round of
the other up to the substitution and rotation that stand before it, which the round trip carries through the fold. -/

namespace Sys2Proof.Machine

open Sys2Proof.Claims

/-! ## Doubling in the field -/

theorem xor_left_comm (a b c : Byte) : a ^^^ (b ^^^ c) = b ^^^ (a ^^^ c) := by
  rw [← xor_assoc, xor_comm a b, xor_assoc]

/-- R91: `multiply` distributes over xor. -/
theorem multiply_xor (a b c : Byte) : multiply a (b ^^^ c) = multiply a b ^^^ multiply a c := by
  rw [multiply, multiply, multiply, ← multiplyLoop_xor, BitVec.xor_self]

theorem multiply_two (b : Byte) : multiply 0x02#8 b = xtime b := by
  revert b; decide

theorem xtime_xor (a b : Byte) : xtime (a ^^^ b) = xtime a ^^^ xtime b := by
  simp only [← multiply_two, multiply_xor]

theorem multiply_three (b : Byte) : multiply 0x03#8 b = xtime b ^^^ b := by
  revert b; decide

theorem multiply_nine (b : Byte) : multiply 0x09#8 b = xtime (xtime (xtime b)) ^^^ b := by
  revert b; decide

theorem multiply_eleven (b : Byte) : multiply 0x0b#8 b = xtime (xtime (xtime b)) ^^^ xtime b ^^^ b := by
  revert b; decide

theorem multiply_thirteen (b : Byte) : multiply 0x0d#8 b = xtime (xtime (xtime b)) ^^^ xtime (xtime b) ^^^ b := by
  revert b; decide

theorem multiply_fourteen (b : Byte) :
    multiply 0x0e#8 b = xtime (xtime (xtime b)) ^^^ xtime (xtime b) ^^^ xtime b := by
  revert b; decide

/-! ## MixColumns and InvMixColumns -/

/-- R114: the byte MixColumns makes of a row's byte `a` and the bytes `b`, `c`, `d` of the rows after it. -/
def mixByte (a b c d : Byte) : Byte := xtime (a ^^^ b) ^^^ b ^^^ c ^^^ d

theorem mixColumns_entry (s : Matrix) (r c : Fin 4) :
    (mixColumns s)[r][c] = mixByte s[r][c] s[r + 1][c] s[r + 2][c] s[r + 3][c] := by
  simp only [mixColumns, mixByte, Fin.getElem_fin, matrixOf_getElem, multiply_two, multiply_three, xtime_xor, xor_assoc]

/-- R115: an entry after InvMixColumns. -/
theorem invMixColumns_entry (s : Matrix) (r c : Fin 4) : (invMixColumns s)[r][c] =
    multiply 0x0e#8 s[r][c] ^^^ multiply 0x0b#8 s[r + 1][c] ^^^ multiply 0x0d#8 s[r + 2][c] ^^^
      multiply 0x09#8 s[r + 3][c] :=
  matrixOf_getElem _ r c r.isLt c.isLt

/-- Mixing a column twice multiplies it by 5, 0, 4, 0: the terms of the rows at odd distance cancel. -/
theorem mixByte_mixByte (a b c d : Byte) :
    mixByte (mixByte a b c d) (mixByte b c d a) (mixByte c d a b) (mixByte d a b c) = xtime (xtime (a ^^^ c)) ^^^ a := by
  simp only [mixByte, xtime_xor, xor_assoc, BitVec.xor_comm, xor_left_comm, xor_cancel_left]

/-- The coefficients 14, 11, 13, 9 are those of mixing a column that was mixed twice. -/
theorem mixByte_of_mixed_twice (a b c d : Byte) :
    mixByte (xtime (xtime (a ^^^ c)) ^^^ a) (xtime (xtime (b ^^^ d)) ^^^ b) (xtime (xtime (c ^^^ a)) ^^^ c)
      (xtime (xtime (d ^^^ b)) ^^^ d) =
    multiply 0x0e#8 a ^^^ multiply 0x0b#8 b ^^^ multiply 0x0d#8 c ^^^ multiply 0x09#8 d := by
  simp only [mixByte, multiply_nine, multiply_eleven, multiply_thirteen, multiply_fourteen, xtime_xor,
    xor_assoc, BitVec.xor_comm, xor_left_comm, xor_cancel_left]

/-- 5, 0, 4, 0 is its own inverse. -/
theorem mixed_twice_twice (a c : Byte) :
    xtime (xtime ((xtime (xtime (a ^^^ c)) ^^^ a) ^^^ (xtime (xtime (c ^^^ a)) ^^^ c))) ^^^
      (xtime (xtime (a ^^^ c)) ^^^ a) = a := by
  rw [xor_comm c a, xor_assoc _ a (_ ^^^ c), xor_left_comm a _ c, xor_cancel_left, xor_cancel_left]

theorem mixColumns_twice_entry (s : Matrix) (r c : Fin 4) :
    (mixColumns (mixColumns s))[r][c] = xtime (xtime (s[r][c] ^^^ s[r + 2][c])) ^^^ s[r][c] := by
  simp only [mixColumns_entry, add_assoc, Fin.reduceAdd, add_zero]
  exact mixByte_mixByte ..

theorem mixColumns_four_times (s : Matrix) : mixColumns (mixColumns (mixColumns (mixColumns s))) = s := by
  refine matrix_ext fun r c => ?_
  simp only [mixColumns_twice_entry, add_assoc, Fin.reduceAdd, add_zero]
  exact mixed_twice_twice ..

theorem invMixColumns_eq_mixColumns_three_times (s : Matrix) :
    invMixColumns s = mixColumns (mixColumns (mixColumns s)) := by
  refine matrix_ext fun r c => ?_
  rw [invMixColumns_entry, mixColumns_entry]
  simp only [mixColumns_twice_entry, add_assoc, Fin.reduceAdd, add_zero]
  exact (mixByte_of_mixed_twice ..).symm

theorem invMixColumns_mixColumns (s : Matrix) : invMixColumns (mixColumns s) = s := by
  rw [invMixColumns_eq_mixColumns_three_times, mixColumns_four_times]

theorem mixColumns_invMixColumns (s : Matrix) : mixColumns (invMixColumns s) = s := by
  rw [invMixColumns_eq_mixColumns_three_times, mixColumns_four_times]

/-! ## The other steps of a round -/

theorem invSubBytes_subBytes (s : Matrix) : invSubBytes (subBytes s) = s :=
  matrix_ext fun r c => by simp [subBytes, invSubBytes]

theorem subBytes_invSubBytes (s : Matrix) : subBytes (invSubBytes s) = s :=
  matrix_ext fun r c => by simp [subBytes, invSubBytes]

theorem shiftRows_entry (s : Matrix) (r c : Fin 4) : (shiftRows s)[r][c] = s[r][c + r] :=
  matrixOf_getElem _ r c r.isLt c.isLt

theorem invShiftRows_entry (s : Matrix) (r c : Fin 4) : (invShiftRows s)[r][c] = s[r][c - r] :=
  matrixOf_getElem _ r c r.isLt c.isLt

theorem invShiftRows_shiftRows (s : Matrix) : invShiftRows (shiftRows s) = s :=
  matrix_ext fun r c => by
    rw [invShiftRows_entry, shiftRows_entry]
    simp only [sub_add_cancel]

theorem shiftRows_invShiftRows (s : Matrix) : shiftRows (invShiftRows s) = s :=
  matrix_ext fun r c => by
    rw [shiftRows_entry, invShiftRows_entry]
    simp only [add_sub_cancel_right]

theorem addRoundKey_addRoundKey (w : List KeyWord) (slot : Nat) (s : Matrix) :
    addRoundKey w slot (addRoundKey w slot s) = s :=
  matrix_ext fun r c => by simp [addRoundKey]

/-- R113: AddRoundKey reads the four words of its slot alone. -/
theorem addRoundKey_congr {w w' : List KeyWord} {slot : Nat}
    (h : ∀ c < 4, wordAt w (4 * slot + c) = wordAt w' (4 * slot + c)) (s : Matrix) :
    addRoundKey w slot s = addRoundKey w' slot s :=
  matrix_ext fun r c => by simp [addRoundKey, h c.val c.isLt]

/-! ## The two transforms -/

/-- R116: the substitution and rotation that every round of the cipher starts with. -/
def subShift (s : Matrix) : Matrix := shiftRows (subBytes s)

/-- R117: the rotation and substitution that every round of the inverse cipher starts with. -/
def invSubShift (s : Matrix) : Matrix := invSubBytes (invShiftRows s)

theorem invSubShift_subShift (s : Matrix) : invSubShift (subShift s) = s := by
  rw [invSubShift, subShift, invShiftRows_shiftRows, invSubBytes_subBytes]

theorem subShift_invSubShift (s : Matrix) : subShift (invSubShift s) = s := by
  rw [invSubShift, subShift, subBytes_invSubBytes, shiftRows_invShiftRows]

theorem cipherRound_eq (w : List KeyWord) (s : Matrix) (round : Nat) :
    cipherRound w s round = addRoundKey w round (mixColumns (subShift s)) := rfl

theorem invCipherRound_eq (w : List KeyWord) (s : Matrix) (round : Nat) :
    invCipherRound w s round = invMixColumns (addRoundKey w round (invSubShift s)) := rfl

theorem cipher_eq (b : Block) (w : List KeyWord) (nr : Nat) : cipher b w nr =
    storeBlock (addRoundKey w nr (subShift
      ((middleRounds nr).foldl (cipherRound w) (addRoundKey w 0 (loadBlock b))))) := rfl

theorem invCipher_eq (b : Block) (w : List KeyWord) (nr : Nat) : invCipher b w nr =
    storeBlock (addRoundKey w 0 (invSubShift
      ((middleRounds nr).reverse.foldl (invCipherRound w) (addRoundKey w nr (loadBlock b))))) := rfl

theorem invCipherRound_undoes_cipherRound (w : List KeyWord) (s : Matrix) (round : Nat) :
    invCipherRound w (subShift (cipherRound w s round)) round = subShift s := by
  rw [invCipherRound_eq, invSubShift_subShift, cipherRound_eq, addRoundKey_addRoundKey, invMixColumns_mixColumns]

theorem cipherRound_undoes_invCipherRound (w : List KeyWord) (s : Matrix) (round : Nat) :
    cipherRound w (invSubShift (invCipherRound w s round)) round = invSubShift s := by
  rw [cipherRound_eq, subShift_invSubShift, invCipherRound_eq, mixColumns_invMixColumns, addRoundKey_addRoundKey]

/-- Rounds `g` that undo rounds `f` behind a layer `e` undo a whole run of them, taken in reverse order. -/
theorem foldl_reverse_undoes_foldl {α ι : Type} {f g : α → ι → α} {e : α → α}
    (h : ∀ s i, g (e (f s i)) i = e s) (l : List ι) (s : α) : l.reverse.foldl g (e (l.foldl f s)) = e s := by
  induction l generalizing s with
  | nil => rfl
  | cons i l ih => rw [List.foldl_cons, List.reverse_cons, List.foldl_append, ih, List.foldl_cons, List.foldl_nil, h]

theorem invCipher_cipher (b : Block) (w : List KeyWord) (nr : Nat) : invCipher (cipher b w nr) w nr = b := by
  rw [invCipher_eq, cipher_eq, loadBlock_storeBlock, addRoundKey_addRoundKey,
    foldl_reverse_undoes_foldl (invCipherRound_undoes_cipherRound w), invSubShift_subShift, addRoundKey_addRoundKey,
    storeBlock_loadBlock]

theorem cipher_invCipher (b : Block) (w : List KeyWord) (nr : Nat) : cipher (invCipher b w nr) w nr = b := by
  have hrounds (s : Matrix) : (middleRounds nr).foldl (cipherRound w)
      (invSubShift ((middleRounds nr).reverse.foldl (invCipherRound w) s)) = invSubShift s := by
    simpa using foldl_reverse_undoes_foldl (cipherRound_undoes_invCipherRound w) (middleRounds nr).reverse s
  rw [cipher_eq, invCipher_eq, loadBlock_storeBlock, addRoundKey_addRoundKey, hrounds, subShift_invSubShift,
    addRoundKey_addRoundKey, storeBlock_loadBlock]

/-- The middle rounds read slots below Nr. -/
theorem lt_of_mem_middleRounds {nr round : Nat} (h : round ∈ middleRounds nr) : round < nr := by
  rw [middleRounds, List.mem_range'_1] at h
  omega

section
variable {w w' : List KeyWord} {nr : Nat} (h : ∀ j < 4 * (nr + 1), wordAt w j = wordAt w' j)
include h

/-- R118: every slot up to Nr stands in the words that agree. -/
theorem addRoundKey_congr_of_le {slot : Nat} (hslot : slot ≤ nr) (s : Matrix) :
    addRoundKey w slot s = addRoundKey w' slot s :=
  addRoundKey_congr (fun c hc => h _ (by omega)) s

theorem cipher_congr (b : Block) : cipher b w nr = cipher b w' nr := by
  have hrounds (s : Matrix) : (middleRounds nr).foldl (cipherRound w) s = (middleRounds nr).foldl (cipherRound w') s :=
    List.foldl_ext _ _ _ fun t round hmem => addRoundKey_congr_of_le h (lt_of_mem_middleRounds hmem).le _
  rw [cipher_eq, cipher_eq, addRoundKey_congr_of_le h (Nat.zero_le nr), hrounds, addRoundKey_congr_of_le h le_rfl]

theorem invCipher_congr (b : Block) : invCipher b w nr = invCipher b w' nr := by
  have hrounds (s : Matrix) : (middleRounds nr).reverse.foldl (invCipherRound w) s =
      (middleRounds nr).reverse.foldl (invCipherRound w') s :=
    List.foldl_ext _ _ _ fun t round hmem => congrArg invMixColumns
      (addRoundKey_congr_of_le h (lt_of_mem_middleRounds (List.mem_reverse.mp hmem)).le _)
  rw [invCipher_eq, invCipher_eq, addRoundKey_congr_of_le h le_rfl, hrounds, addRoundKey_congr_of_le h (Nat.zero_le nr)]

end

/-! ## The block commands -/

/-- R120: ENC_BLOCK that passes its checks. -/
theorem exec_encBlock_valid {s : State} (hkey : s.keyValid = true) :
    exec (.encBlock 16) s = .next (complete { s with dout := wordsOf (cipherWith s (bytes16 s.din)), outLen := 16#5 }) := by
  simp [exec, execEncBlock, blockCommand, hkey]

/-- R121: DEC_BLOCK that passes its checks. -/
theorem exec_decBlock_valid {s : State} (hkey : s.keyValid = true) :
    exec (.decBlock 16) s =
      .next (complete { s with dout := wordsOf (invCipherWith s (bytes16 s.din)), outLen := 16#5 }) := by
  simp [exec, execDecBlock, blockCommand, hkey]

/-- R122: the words of the known answer's 128-bit key 00..0f, with the key words it does not read 0. -/
def knownKey : Vector Word 8 :=
  #v[0x03020100#32, 0x07060504#32, 0x0B0A0908#32, 0x0F0E0D0C#32, 0#32, 0#32, 0#32, 0#32]

/-- R122: the plaintext of the known answer. -/
def knownPlain : Vector Word 4 := #v[0x33221100#32, 0x77665544#32, 0xBBAA9988#32, 0xFFEEDDCC#32]

theorem cipher_known_answer : wordsOf (cipher (bytes16 knownPlain) (storedWords (expandedStore 0#2 knownKey)) 10) =
    #v[0xD8E0C469#32, 0x30047B6A#32, 0x80B7CDD8#32, 0x5AC5B470#32] := by decide +kernel

/-! ## The obligations -/

/-- Settles O29, from the entries of the two rotations. -/
theorem rowRotationsAreInverse : Obligations.RowRotationsAreInverse := by
  unfold Obligations.RowRotationsAreInverse
  refine ⟨fun s r c => ⟨shiftRows_entry s r c, ?_⟩, fun s => ⟨invShiftRows_shiftRows s, shiftRows_invShiftRows s⟩⟩
  have hcol : (c - r).val = (c.val + 4 - r.val) % 4 := by
    rw [Fin.val_sub]
    omega
  rw [invShiftRows_entry]
  simp only [Fin.getElem_fin, hcol]

/-- Settles O32: every round key that a transform adds stands in the words up to 4*(Nr+1). -/
theorem transformsReadOnlyTheirRoundKeys : Obligations.TransformsReadOnlyTheirRoundKeys := by
  unfold Obligations.TransformsReadOnlyTheirRoundKeys
  exact fun b w w' nr h => ⟨cipher_congr h b, invCipher_congr h b⟩

/-- Settles O33, from the round trip of the transforms and the key's expansion reading its first four words alone. -/
theorem blockRoundTrip : Obligations.BlockRoundTrip := by
  unfold Obligations.BlockRoundTrip
  refine ⟨fun b w nr => ⟨invCipher_cipher b w nr, cipher_invCipher b w nr⟩, fun s hkey => ?_,
    fun s hidle h0 h1 h2 h3 hdin => ?_⟩
  · refine ⟨_, _, exec_encBlock_valid hkey, exec_decBlock_valid hkey, ?_⟩
    change wordsOf (invCipherWith s (bytes16 (wordsOf (cipherWith s (bytes16 s.din))))) = s.din
    rw [bytes16_wordsOf, invCipherWith, cipherWith, invCipher_cipher, wordsOf_bytes16]
  · have hstore : expandedStore 0#2 s.key = expandedStore 0#2 knownKey :=
      expandedStore_congr (by decide) fun ⟨k, _⟩ hk => by
        have h4 : k < 4 := hk
        interval_cases k
        exacts [h0, h1, h2, h3]
    refine ⟨_, _, exec_keyExpand_idle hidle (by decide), exec_encBlock_valid rfl, ?_⟩
    change wordsOf (cipher (bytes16 s.din) (storedWords (expandedStore 0#2 s.key)) 10) = _
    rw [hstore, hdin]
    exact cipher_known_answer

end Sys2Proof.Machine
end

section
/-! # Proofs about the CBC chainer (44_cbc_chainer.md rules R130 to R143)

First the errors, one rule for each check over all commands, so that a command to which an error applies ends in the error
completion of the first one (R172). Then the commands in an open stream, one equation for each case of the rules. What a
command leaves in STREAM is read off these. -/

namespace Sys2Proof.Machine

open Sys2Proof.Claims

/-! ## The shared operations as the statements write them -/

/-- The end of stream is R150 as the statements write it out. -/
theorem endOfStream_eq_closed (s : State) : endOfStream s = closed s := rfl

/-- R135: the block is xored with CV before the cipher, and the ciphertext is the next CV. -/
theorem emitChunk_some (p : Block) (s : State) : emitChunk (some p) s =
    { s with dout := wordsOf (chained s p), cv := wordsOf (chained s p), outLen := 16#5 } := rfl

/-- R135: an empty first chunk emits nothing. -/
theorem emitChunk_none (s : State) : emitChunk none s = { s with outLen := 0#5 } := rfl

/-- R143: the inverse cipher of DIN, xored with CV. -/
theorem invCipherWith_xor_cv (s : State) :
    xorBytes (invCipherWith s (bytes16 s.din)) (bytes16 s.cv) = unchained s := rfl

/-! ## The checks of a command, in the order of R172 -/

section
variable {i : Instr} {s : State}

/-- R130: a stream state outside the command's row of the table ends it in Sequence. -/
theorem exec_of_not_admits (hadm : admits i s.stream = false) : exec i s = .next (errorCompletion .sequence s) := by
  cases i with
  | keyExpand | cbcEncInit | cbcEncChunk | cbcDecInit | cbcDecBlock =>
    exact if_pos (beq_eq_false_iff_ne.mp hadm)
  | encBlock | decBlock | gfMul | zeroize => cases hadm

/-- R73: the key size code 3. -/
theorem exec_of_badKeySize (hadm : admits i s.stream = true) (hksz : badKeySize i = true) :
    exec i s = .next (errorCompletion .unsupportedKeySize s) := by
  cases i with
  | keyExpand | cbcEncInit | cbcDecInit =>
    exact (if_neg (not_not_intro (beq_iff_eq.mp hadm))).trans (if_pos (beq_iff_eq.mp hksz))
  | encBlock | decBlock | gfMul | cbcEncChunk | cbcDecBlock | zeroize => cases hksz

/-- R72: a byte count that the command does not accept. -/
theorem exec_of_badLength (hadm : admits i s.stream = true) (hlen : badLength i = true) :
    exec i s = .next (errorCompletion .invalidBlockSize s) := by
  cases i with
  | encBlock | decBlock => exact congrArg Host.Outcome.next (if_pos (bne_iff_ne.mp hlen))
  | cbcEncChunk =>
    exact (if_neg (not_not_intro (beq_iff_eq.mp hadm))).trans (if_pos (of_decide_eq_true hlen))
  | cbcDecBlock =>
    exact (if_neg (not_not_intro (beq_iff_eq.mp hadm))).trans (if_pos (bne_iff_ne.mp hlen))
  | keyExpand | gfMul | cbcEncInit | cbcDecInit | zeroize => cases hlen

/-- R119: a block command without an expansion in W. -/
theorem exec_of_lacksKey (hlen : badLength i = false) (hkey : lacksKey i s = true) :
    exec i s = .next (errorCompletion .noKey s) := by
  cases i with
  | encBlock len | decBlock len =>
    obtain rfl : len = 16 := by simpa [badLength] using hlen
    exact congrArg Host.Outcome.next (if_pos ((Bool.not_eq_true' _).mp hkey))
  | keyExpand | gfMul | cbcEncInit | cbcEncChunk | cbcDecInit | cbcDecBlock | zeroize => cases hkey

/-- R140: a STREAMLEN that is no multiple of 16. -/
theorem exec_of_badStreamLength (hadm : admits i s.stream = true) (hksz : badKeySize i = false)
    (hlen : badStreamLength i s = true) : exec i s = .next (errorCompletion .invalidCiphertextSize s) := by
  cases i with
  | cbcDecInit ksz =>
    refine (if_neg (not_not_intro (beq_iff_eq.mp hadm))).trans ((if_neg (beq_eq_false_iff_ne.mp hksz)).trans ?_)
    exact if_pos (bne_iff_ne.mp hlen)
  | keyExpand | encBlock | decBlock | gfMul | cbcEncInit | cbcEncChunk | cbcDecBlock | zeroize => cases hlen

/-- R172: a command to which an error applies ends in the error completion of the first one. -/
theorem exec_of_firstError (herr : firstError i s ≠ .none) :
    exec i s = .next (errorCompletion (firstError i s) s) := by
  unfold firstError at herr ⊢
  split_ifs at herr ⊢ with hadm hksz hlen hkey hslen
  · exact exec_of_not_admits hadm
  · exact exec_of_badKeySize (by simpa using hadm) hksz
  · exact exec_of_badLength (by simpa using hadm) hlen
  · exact exec_of_lacksKey (by simpa using hlen) hkey
  · exact exec_of_badStreamLength (by simpa using hadm) (by simpa using hksz) hslen
  · exact absurd rfl herr

/-- R172: the sequence check comes first. -/
theorem firstError_eq_sequence_iff : firstError i s = .sequence ↔ admits i s.stream = false := by
  unfold firstError
  split_ifs <;> simp_all

/-- R172: a command has no error exactly when it passes every check. -/
theorem firstError_eq_none_iff : firstError i s = .none ↔
    admits i s.stream = true ∧ badKeySize i = false ∧ badLength i = false ∧ lacksKey i s = false ∧
      badStreamLength i s = false := by
  unfold firstError
  split_ifs <;> simp_all

end

/-! ## CBC_ENC_CHUNK in an encryption stream -/

theorem chunkBlock_full (first : Bool) (d : Block) : chunkBlock first d 16 = some d := rfl

theorem chunkBlock_padded {first : Bool} {n : Nat} (hn : n < 16) (hblock : ¬(first = true ∧ n = 0)) (d : Block) :
    chunkBlock first d n = some (pad d n) :=
  (if_neg hn.ne).trans (if_neg hblock)

theorem chunkBlock_empty_first (d : Block) : chunkBlock true d 0 = none := rfl

/-- R133: a block is the padded one when it has its bytes. -/
theorem eq_pad_of_bytes {p d : Block} {n : Nat}
    (h : ∀ i : Fin 16, p[i] = if i.val < n then d[i] else BitVec.ofNat 8 (16 - n)) : p = pad d n :=
  Vector.ext fun i hi => by simpa [pad] using h ⟨i, hi⟩

/-- R134: a full chunk keeps the stream open. -/
theorem exec_cbcEncChunk_full {s : State} (henc : s.stream = .enc) : exec (.cbcEncChunk 16) s =
    .next (complete { emitChunk (some (bytes16 s.din)) s with first := false }) := by
  simp [exec, execCbcEncChunk, henc, chunkBlock_full]

/-- R134: a chunk of fewer than 16 bytes closes the stream. -/
theorem exec_cbcEncChunk_short {n : Nat} {s : State} (henc : s.stream = .enc) (hn : n < 16) :
    exec (.cbcEncChunk n) s = .next (complete (closed (emitChunk (chunkBlock s.first (bytes16 s.din) n) s))) := by
  simp [exec, execCbcEncChunk, henc, hn, hn.le.not_gt, endOfStream_eq_closed, closed]

/-! ## CBC_DEC_INIT in an idle block -/

/-- R140: a nonempty stream of whole blocks is opened. -/
theorem exec_cbcDecInit_open {ksz : BitVec 2} {s : State} (hidle : s.stream = .idle) (hksz : ksz ≠ 3#2)
    (hlen : s.streamLen.toNat % 16 = 0) (hne : s.streamLen ≠ 0#32) : exec (.cbcDecInit ksz) s = .next (complete
      { expandInto ksz s with cv := s.iv, outLen := 0#5, stream := .dec, blkRem := s.streamLen }) := by
  simp [exec, execCbcDecInit, hidle, hksz, hlen, hne]

/-- R140: an empty stream ends at once, its expansion wiped. -/
theorem exec_cbcDecInit_empty {ksz : BitVec 2} {s : State} (hidle : s.stream = .idle) (hksz : ksz ≠ 3#2)
    (hempty : s.streamLen = 0#32) : exec (.cbcDecInit ksz) s =
      .next (complete { closed s with cv := s.iv, outLen := 0#5 }) := by
  simp [exec, execCbcDecInit, hidle, hksz, hempty, endOfStream_eq_closed, closed]

/-! ## CBC_DEC_BLOCK in a decryption stream -/

/-- R143: BLKREM falls to 0 at the block that finds it at 16. -/
theorem blkRem_sub_eq_zero_iff (v : Word) : v - 16#32 = 0#32 ↔ v = 16#32 := sub_eq_zero

/-- R143: a block that is not the last. -/
theorem exec_cbcDecBlock_middle {s : State} (hdec : s.stream = .dec) (hmore : s.blkRem ≠ 16#32) :
    exec (.cbcDecBlock 16) s = .next (complete
      { s with cv := s.din, dout := wordsOf (unchained s), blkRem := s.blkRem - 16#32, outLen := 16#5 }) := by
  simp [exec, execCbcDecBlock, hdec, blkRem_sub_eq_zero_iff, hmore, invCipherWith_xor_cv]

/-- R143, R142: the last block is unpadded and closes the stream. -/
theorem exec_cbcDecBlock_last {s : State} (hdec : s.stream = .dec) (hlast : s.blkRem = 16#32) :
    exec (.cbcDecBlock 16) s = .next (complete
      { closed s with cv := s.din, dout := wordsOf (unchained s), outLen := BitVec.ofNat 5 (unpad (unchained s)) }) := by
  simp [exec, execCbcDecBlock, hdec, hlast, invCipherWith_xor_cv, endOfStream_eq_closed, closed]

/-- R142: a last byte in 1..16 is the number of bytes to drop. -/
theorem unpad_of_pad_byte {p : Block} (h : 1 ≤ p[15].toNat ∧ p[15].toNat ≤ 16) : unpad p = 16 - p[15].toNat :=
  if_pos h

/-- R142: any other last byte drops nothing. -/
theorem unpad_of_other_byte {p : Block} (h : p[15].toNat = 0 ∨ 17 ≤ p[15].toNat) : unpad p = 16 :=
  if_neg (by omega)

theorem unpad_le (p : Block) : unpad p ≤ 16 := by
  unfold unpad
  split_ifs <;> omega

/-- R33: OUTLEN's five bits hold every count that unpadding gives. -/
theorem toNat_ofNat_unpad (p : Block) : (BitVec.ofNat 5 (unpad p)).toNat = unpad p := by
  have := unpad_le p
  rw [BitVec.toNat_ofNat, Nat.mod_eq_of_lt (by omega)]

/-! ## The stream after a command -/

/-- R130: STREAM after a command that ends without an error. -/
def streamAfter (i : Instr) (s : State) : Stream :=
  match i with
  | .keyExpand _ => .idle
  | .encBlock _ => s.stream
  | .decBlock _ => s.stream
  | .gfMul => s.stream
  | .cbcEncInit _ => .enc
  | .cbcEncChunk n => if n < 16 then .idle else .enc
  | .cbcDecInit _ => if s.streamLen = 0#32 then .idle else .dec
  | .cbcDecBlock _ => if s.blkRem = 16#32 then .idle else .dec
  | .zeroize => .idle

/-- R130: a command that passes every check leaves ERR and ERRCODE, and STREAM as the table's text says. -/
theorem exec_of_no_error {i : Instr} {s : State} (h : firstError i s = .none) :
    ∃ t, exec i s = .next t ∧ t.err = s.err ∧ t.errCode = s.errCode ∧ t.stream = streamAfter i s := by
  obtain ⟨hadm, hksz, hlen, hkey, hslen⟩ := firstError_eq_none_iff.mp h
  cases i with
  | keyExpand ksz =>
    exact ⟨_, exec_keyExpand_idle (beq_iff_eq.mp hadm) (beq_eq_false_iff_ne.mp hksz), rfl, rfl, beq_iff_eq.mp hadm⟩
  | encBlock len =>
    obtain rfl : len = 16 := by simpa [badLength] using hlen
    exact ⟨_, exec_encBlock_valid (by simpa [lacksKey] using hkey), rfl, rfl, rfl⟩
  | decBlock len =>
    obtain rfl : len = 16 := by simpa [badLength] using hlen
    exact ⟨_, exec_decBlock_valid (by simpa [lacksKey] using hkey), rfl, rfl, rfl⟩
  | gfMul => exact ⟨_, exec_gfMul s, rfl, rfl, rfl⟩
  | cbcEncInit ksz =>
    exact ⟨_, exec_cbcEncInit_idle (beq_iff_eq.mp hadm) (beq_eq_false_iff_ne.mp hksz), rfl, rfl, rfl⟩
  | cbcEncChunk n =>
    have henc : s.stream = .enc := beq_iff_eq.mp hadm
    have hn : n ≤ 16 := by simpa [badLength] using hlen
    rcases hn.lt_or_eq with hshort | rfl
    · refine ⟨_, exec_cbcEncChunk_short henc hshort, ?_, ?_, (if_pos hshort).symm⟩ <;> rw [emitChunk_eq] <;> rfl
    · exact ⟨_, exec_cbcEncChunk_full henc, rfl, rfl, henc⟩
  | cbcDecInit ksz =>
    have hidle : s.stream = .idle := beq_iff_eq.mp hadm
    have hksz' : ksz ≠ 3#2 := beq_eq_false_iff_ne.mp hksz
    by_cases hempty : s.streamLen = 0#32
    · exact ⟨_, exec_cbcDecInit_empty hidle hksz' hempty, rfl, rfl, (if_pos hempty).symm⟩
    · have hwhole : s.streamLen.toNat % 16 = 0 := by simpa [badStreamLength] using hslen
      exact ⟨_, exec_cbcDecInit_open hidle hksz' hwhole hempty, rfl, rfl, (if_neg hempty).symm⟩
  | cbcDecBlock len =>
    obtain rfl : len = 16 := by simpa [badLength] using hlen
    have hdec : s.stream = .dec := beq_iff_eq.mp hadm
    by_cases hlast : s.blkRem = 16#32
    · exact ⟨_, exec_cbcDecBlock_last hdec hlast, rfl, rfl, (if_pos hlast).symm⟩
    · exact ⟨_, exec_cbcDecBlock_middle hdec hlast, rfl, rfl, hdec.trans (if_neg hlast).symm⟩
  | zeroize => exact ⟨_, rfl, rfl, rfl, rfl⟩

/-! ## The obligations -/

/-- Settles O38, from the block that each of the three kinds of chunk emits. -/
theorem encChunkEncryptsItsBlock : Obligations.EncChunkEncryptsItsBlock := by
  unfold Obligations.EncChunkEncryptsItsBlock
  refine fun n s henc => ⟨?_, fun hn hblock p hp => ?_, ?_⟩
  · rintro rfl
    rw [exec_cbcEncChunk_full henc, emitChunk_some]
    rfl
  · rw [exec_cbcEncChunk_short henc hn, chunkBlock_padded hn hblock, ← eq_pad_of_bytes hp, emitChunk_some]
    rfl
  · rintro rfl hfirst
    rw [exec_cbcEncChunk_short henc (by decide), hfirst, chunkBlock_empty_first, emitChunk_none]
    rfl

/-- Settles O40, from the two cases of BLKREM and, for the last block, of its last byte. -/
theorem decBlockOfStreamDecrypts : Obligations.DecBlockOfStreamDecrypts := by
  unfold Obligations.DecBlockOfStreamDecrypts
  refine fun s hdec => ⟨fun hmore => exec_cbcDecBlock_middle hdec hmore, fun hlast => ?_⟩
  refine ⟨_, exec_cbcDecBlock_last hdec hlast, rfl, fun hpad => ?_, fun hother => ?_⟩
  · exact (toNat_ofNat_unpad _).trans (unpad_of_pad_byte hpad)
  · exact (toNat_ofNat_unpad _).trans (unpad_of_other_byte hother)

/-- Settles O46: a command ends in the error completion of its first error, which is Sequence exactly when the table
excludes it, or keeps the flags that its issue cleared. -/
theorem streamStatesAdmitTheirCommands : Obligations.StreamStatesAdmitTheirCommands := by
  unfold Obligations.StreamStatesAdmitTheirCommands
  intro i s herr hcode
  by_cases hfirst : firstError i s = .none
  · obtain ⟨t, hexec, hterr, htcode, hstream⟩ := exec_of_no_error hfirst
    refine ⟨t, hexec, ?_, ?_, ?_, fun _ => hstream.trans (by cases i <;> rfl)⟩
    · rw [← firstError_eq_sequence_iff, hfirst, htcode, hcode]
    · simp [hterr, herr]
    · simp [htcode, hcode]
  · refine ⟨_, exec_of_firstError hfirst, firstError_eq_sequence_iff, fun _ => rfl, fun _ => rfl, ?_⟩
    simp

end Sys2Proof.Machine
end

section
/-! # Proofs about key erasure (45_control.md rule R161)

ZEROIZE uses neither LEN nor KSZ, so its row selects one word. That the opcode's other words are illegal is shown for
every opcode without LEN and KSZ at once. -/

namespace Sys2Proof.Machine

open Sys2Proof.Claims

/-- R78: an opcode that uses neither LEN nor KSZ is illegal with any other bit set. -/
theorem decode_bare_opcode_eq_none {opc : Byte} {v : Word} (hbare : opc ∈ [0x04#8, 0x09#8])
    (hopc : v.extractLsb' 0 8 = opc) (hne : v ≠ opc.zeroExtend 32) : decode v = none := by
  rw [decode_eq_none_iff, selects_no_row_iff, hopc]
  by_contra hlegal
  obtain ⟨hclear, hksz, hlen⟩ : reservedClear v ∧ v.extractLsb' 16 2 = 0#2 ∧ v.extractLsb' 8 5 = 0#5 := by
    fin_cases hbare <;> simpa using hlegal
  exact hne ((bareRow_selects_iff_eq .zeroize opc v).mp ((bareRow_selects ..).mpr ⟨hopc, hlen, hksz, hclear⟩))

/-- R76, R77: only the row of ZEROIZE reads as ZEROIZE. -/
theorem row_of_toInstr_zeroize {r : OpRow} {v : Word} (hr : r ∈ opRows) (h : r.opcode.toInstr v = .zeroize) :
    r = bareRow .zeroize 0x09#8 := by
  simp only [opRows_eq, List.mem_cons, List.not_mem_nil, or_false] at hr
  rcases hr with rfl | rfl | rfl | rfl | rfl | rfl | rfl | rfl | rfl <;> cases h
  rfl

/-- R161: the one word of ZEROIZE. -/
theorem decode_eq_zeroize_iff (v : Word) : decode v = some .zeroize ↔ v = 0x00000009#32 := by
  constructor
  · intro h
    obtain ⟨r, hr, hsel, hinstr⟩ := exists_row_of_decode h
    rw [row_of_toInstr_zeroize hr hinstr] at hsel
    exact (bareRow_selects_iff_eq ..).mp hsel
  · rintro rfl
    decide

/-- R161: ZEROIZE closes any stream with its wipe and zeroes the data registers, in every state. -/
theorem exec_zeroize (s : State) : exec .zeroize s =
    .next { closed s with iv := Vector.replicate 4 0#32, cv := Vector.replicate 4 0#32, din := Vector.replicate 4 0#32,
                          dout := Vector.replicate 4 0#32, outLen := 0#5, busy := false } := rfl

/-- Settles O47, from the one word ZEROIZE's row selects and the illegality of its opcode's other words. -/
theorem zeroizeErasesTheBlock : Obligations.ZeroizeErasesTheBlock := by
  unfold Obligations.ZeroizeErasesTheBlock
  refine ⟨exec_zeroize, decode_eq_zeroize_iff, fun s hbusy hopc hne => ?_⟩
  exact engineStep_illegal hbusy (decode_bare_opcode_eq_none (by decide) hopc hne)

end Sys2Proof.Machine
end

section
/-! # Proofs about error completions (60_exceptions.md rules R170, R172, R173)

A completion that found ERR = 0 and left ERR = 1 can only have been the error completion of R170. Which code a command
reports is read off the checks in the order of R172. -/

namespace Sys2Proof.Machine

open Sys2Proof.Claims

/-- R28: a command ends in the error completion of a real code or keeps ERR and ERRCODE. -/
theorem exec_errors (i : Instr) (s : State) :
    ∃ t, exec i s = .next t ∧
      ((t.err = s.err ∧ t.errCode = s.errCode) ∨ (∃ code, code ≠ .none ∧ t = errorState code s)) := by
  rcases exec_cases i s with ⟨code, hcode, h⟩ | ⟨t, h, -, herr, hcode⟩
  · exact ⟨_, h, .inr ⟨code, hcode, errorCompletion_eq_errorState ..⟩⟩
  · exact ⟨t, h, .inl ⟨herr, hcode⟩⟩

/-- R173: of the two ways an outcome ends, the one that raises ERR is R170's state with the code that it reports. -/
theorem eq_errorState_of_err_raised {o : Host.Outcome State Fault Refusal} {s t : State}
    (hends : ∃ u, o = .next u ∧
      ((u.err = s.err ∧ u.errCode = s.errCode) ∨ (∃ code, code ≠ .none ∧ u = errorState code s)))
    (hclear : s.err = false) (hnext : o = .next t) (hraised : t.err = true) : t = errorState t.errCode s := by
  obtain ⟨u, hu, hcases⟩ := hends
  obtain rfl : u = t := by cases hu.symm.trans hnext; rfl
  rcases hcases with ⟨hkept, -⟩ | ⟨code, -, rfl⟩
  · simp [hkept, hclear] at hraised
  · rfl

/-- R172: a command issued with ERR and ERRCODE cleared reports its first error, or none. -/
theorem exec_reports_firstError (i : Instr) {s : State} (herr : s.err = false) (hcode : s.errCode = .none) :
    ∃ t, exec i s = .next t ∧ t.errCode = firstError i s ∧ (t.err = true ↔ t.errCode ≠ .none) := by
  by_cases hfirst : firstError i s = .none
  · obtain ⟨t, hexec, hterr, htcode, -⟩ := exec_of_no_error hfirst
    exact ⟨t, hexec, by rw [htcode, hcode, hfirst], by simp [hterr, herr, htcode, hcode]⟩
  · exact ⟨_, exec_of_firstError hfirst, rfl, by simp [hfirst]⟩

/-- Settles O49, from the one error of an illegal word and the first error of a command. -/
theorem firstErrorIsReported : Obligations.FirstErrorIsReported := by
  unfold Obligations.FirstErrorIsReported
  intro s hbusy herr hcode
  rcases engineStep_cases s with ⟨hidle, -⟩ | ⟨-, hill, hstep⟩ | ⟨-, i, hdec, hstep⟩
  · simp [hbusy] at hidle
  · rw [hstep, hill]
    exact ⟨_, rfl, rfl, by simp⟩
  · rw [hstep, hdec]
    exact exec_reports_firstError i herr hcode

/-- Settles O50, from the two ways a command and a turn of the busy engine end. -/
theorem errorsArePrecise : Obligations.ErrorsArePrecise := by
  unfold Obligations.ErrorsArePrecise
  refine ⟨fun i s t hclear hnext hraised => ?_, fun s t hbusy hclear hnext hraised => ?_⟩
  · exact eq_errorState_of_err_raised (exec_errors i s) hclear hnext hraised
  · exact eq_errorState_of_err_raised (engineStep_errors hbusy) hclear hnext hraised

end Sys2Proof.Machine
end

section
/-! # Proofs about reset (70_reset_and_hazards.md rules R190, R191) -/

namespace Sys2Proof.Machine

/-! ## Reads of the reset state and of ID -/

theorem statusWord_reset : statusWord State.reset = 0#32 := by decide

/-- R190: a register of the reset state reads 0, but for ID. -/
theorem readReg_reset {r : Reg} (hr : r ≠ .id) : readReg State.reset r = 0#32 := by
  cases r with
  | id => exact absurd rfl hr
  | status => exact statusWord_reset
  | cmd | outLen | gfOp | gfRes | streamLen | blkRem => rfl
  | key k | iv k | cv k | din k | dout k | w k => exact Vector.getElem_replicate k.isLt

theorem Reg.ofOffset_id : Reg.ofOffset 0x000 = some .id := by decide

/-- R23, R196: ID reads its constant, whether BUSY is 0 or 1. -/
theorem readAt_id (s : State) : readAt 0x000 s = { s with readData := 0x41455301#32 } := by
  unfold readAt
  split
  · rw [busyRead, Reg.ofOffset_id, Config.idValue]
  · rw [idleRead_of_found Reg.ofOffset_id, readReg, Config.idValue]

/-! ## The obligations -/

/-- Settles O8: the fields of the reset state by their definition, its registers one group at a time, and ID by the
read that does not depend on BUSY. -/
theorem resetStateHoldsZero : Obligations.ResetStateHoldsZero := by
  unfold Obligations.ResetStateHoldsZero
  refine ⟨fun r => ?_, rfl, rfl, rfl, rfl, rfl, rfl, rfl, rfl, fun s => ?_⟩
  · split
    · next hid => rw [hid, readReg, Config.idValue]
    · next hother => exact readReg_reset hother
  · rw [busRead_good (by decide) (by decide), readAt_id]

/-- Settles O9: the reset event answers `platformReset`, which takes the model's own three fields alone from the state
it finds. -/
theorem resetAbandonsTheCommand : Obligations.ResetAbandonsTheCommand := by
  unfold Obligations.ResetAbandonsTheCommand
  exact fun s => ⟨platformReset s, rfl, rfl⟩

end Sys2Proof.Machine
end

section
/-! # Proofs that decoding and encoding undo each other (30_encoding.md rules R70 to R77, R82)

OPC alone tells the rows of the opcode table apart, so a word decodes to the command of whichever row it selects. A
command's word carries the command's fields, and a word without reserved bits is the word of the fields it carries. -/

namespace Sys2Proof.Machine

/-! ## Words made of fields -/

/-- A field of a word, put at bit `k` of an otherwise clear word. -/
def placed {m : Nat} (b : BitVec m) (k : Nat) : Word := b.zeroExtend 32 <<< k

/-- A placed field is read back at its place. -/
theorem placed_field_same {m : Nat} (b : BitVec m) {k : Nat} (h : k + m ≤ 32) :
    (placed b k).extractLsb' k m = b := by
  ext j hj
  have h32 : k + j < 32 := by omega
  simp [placed, h32, BitVec.getLsbD_eq_getElem hj]

/-- A placed field leaves every other place 0. -/
theorem placed_field_other {m : Nat} (b : BitVec m) {k lo n : Nat} (h : lo + n ≤ k ∨ k + m ≤ lo) :
    (placed b k).extractLsb' lo n = 0#n := by
  ext j hj
  rcases h with hbelow | habove
  · have hlt : lo + j < k := by omega
    simp [placed, hlt]
  · have hge : m ≤ lo + j - k := by omega
    simp [placed, b.getLsbD_of_ge _ hge]

/-- R70, R75: a command word is its three fields, each at its place. -/
theorem commandWord_eq_placed (opc : Byte) {len : Nat} (hlen : len < 32) (ksz : BitVec 2) :
    commandWord opc len ksz = placed opc 0 ||| placed (BitVec.ofNat 5 len) 8 ||| placed ksz 16 := by
  have hzext : BitVec.ofNat 32 len = (BitVec.ofNat 5 len).zeroExtend 32 :=
    BitVec.eq_of_toNat_eq (by simp; omega)
  rw [commandWord, hzext, placed, placed, placed, BitVec.shiftLeft_zero]

theorem commandWord_fields (opc : Byte) {len : Nat} (hlen : len < 32) (ksz : BitVec 2) :
    (commandWord opc len ksz).extractLsb' 0 8 = opc ∧
    (commandWord opc len ksz).extractLsb' 8 5 = BitVec.ofNat 5 len ∧
    (commandWord opc len ksz).extractLsb' 13 3 = 0#3 ∧
    (commandWord opc len ksz).extractLsb' 16 2 = ksz ∧
    (commandWord opc len ksz).extractLsb' 18 14 = 0#14 := by
  simp [commandWord_eq_placed opc hlen ksz, BitVec.extractLsb'_or, placed_field_same, placed_field_other]

theorem lenField_commandWord (opc : Byte) {len : Nat} (hlen : len < 32) (ksz : BitVec 2) :
    lenField (commandWord opc len ksz) = len := by
  obtain ⟨-, hfield, -⟩ := commandWord_fields opc hlen ksz
  rw [lenField, hfield, BitVec.toNat_ofNat, Nat.mod_eq_of_lt hlen]

theorem kszField_commandWord (opc : Byte) {len : Nat} (hlen : len < 32) (ksz : BitVec 2) :
    kszField (commandWord opc len ksz) = ksz :=
  (commandWord_fields opc hlen ksz).2.2.2.1

theorem lenField_lt (v : Word) : lenField v < 32 := BitVec.isLt _

/-- R74: a word with no reserved bit set is the word of its fields. -/
theorem commandWord_of_fields {v : Word} (hclear : reservedClear v) :
    commandWord (v.extractLsb' 0 8) (lenField v) (kszField v) = v := by
  obtain ⟨hrsv0, hrsv1⟩ := hclear
  obtain ⟨hopc, hlen, hrsv0', hksz, hrsv1'⟩ := commandWord_fields (v.extractLsb' 0 8) (lenField_lt v) (kszField v)
  refine word_eq_iff_fields.mpr ⟨hopc, hlen.trans ?_, hrsv0'.trans hrsv0.symm, hksz, hrsv1'.trans hrsv1.symm⟩
  rw [lenField, BitVec.ofNat_toNat, BitVec.setWidth_eq]

/-! ## The row a word selects -/

/-- R76: a row fixes OPC, so a selected row's pattern holds the word's OPC. -/
theorem opc_of_selects {r : OpRow} {v : Word} (hr : r ∈ opRows) (hsel : r.selects v = true) :
    v.extractLsb' 0 8 = r.pattern.extractLsb' 0 8 := by
  have hmask : ∀ r ∈ opRows, r.mask.extractLsb' 0 8 = BitVec.allOnes 8 := by decide
  rw [OpRow.selects, beq_iff_eq] at hsel
  rw [← hsel, field_and_of_ones v (hmask r hr)]

/-- R71, R76: no two rows have the same OPC. -/
theorem row_eq_of_opc_eq : ∀ r ∈ opRows, ∀ r' ∈ opRows,
    r.pattern.extractLsb' 0 8 = r'.pattern.extractLsb' 0 8 → r = r' := by decide

/-- R77: a word decodes to the command of whichever row it selects. -/
theorem decode_of_selects {r : OpRow} {v : Word} (hr : r ∈ opRows) (hsel : r.selects v = true) :
    decode v = some (r.opcode.toInstr v) := by
  cases hdec : decode v with
  | none => exact absurd hsel ((decode_eq_none_iff v).mp hdec r hr)
  | some i =>
    obtain ⟨r', hr', hsel', rfl⟩ := exists_row_of_decode hdec
    rw [row_eq_of_opc_eq r hr r' hr' ((opc_of_selects hr hsel).symm.trans (opc_of_selects hr' hsel'))]

/-! ## From a command to its word and back -/

theorem lt_of_lenFits {len : Nat} (h : lenFits len = true) : len < 32 := of_decide_eq_true h

theorem rowOf_mem (i : Instr) : Laws.rowOf i ∈ opRows := by
  cases i <;> simp [Laws.rowOf, opRows]

theorem rowOf_selects_encode {i : Instr} (hwf : i.WellFormed) : (Laws.rowOf i).selects (encode i) = true := by
  cases i with
  | keyExpand ksz => exact Laws.WordInRow.keyExpand ksz hwf
  | encBlock len => exact Laws.WordInRow.encBlock len hwf
  | decBlock len => exact Laws.WordInRow.decBlock len hwf
  | gfMul => exact Laws.WordInRow.gfMul hwf
  | cbcEncInit ksz => exact Laws.WordInRow.cbcEncInit ksz hwf
  | cbcEncChunk len => exact Laws.WordInRow.cbcEncChunk len hwf
  | cbcDecInit ksz => exact Laws.WordInRow.cbcDecInit ksz hwf
  | cbcDecBlock len => exact Laws.WordInRow.cbcDecBlock len hwf
  | zeroize => exact Laws.WordInRow.zeroize hwf

/-- R72, R73: the fields of a command's word are the command's. -/
theorem toInstr_encode {i : Instr} (hwf : i.WellFormed) : (Laws.rowOf i).opcode.toInstr (encode i) = i := by
  cases i with
  | keyExpand ksz | cbcEncInit ksz | cbcDecInit ksz =>
    exact congrArg _ (kszField_commandWord _ (by decide) ksz)
  | encBlock len | decBlock len | cbcEncChunk len | cbcDecBlock len =>
    exact congrArg _ (lenField_commandWord _ (lt_of_lenFits hwf) 0#2)
  | gfMul | zeroize => rfl

/-- R77: no bit of a command word is dropped. -/
theorem decode_encode {i : Instr} (hwf : i.WellFormed) : decode (encode i) = some i := by
  rw [decode_of_selects (rowOf_mem i) (rowOf_selects_encode hwf), toInstr_encode hwf]

/-- R80: a 32-bit word is its own table word. -/
theorem tableWord_toNat (v : Word) : tableWord 32 v.toNat = v := by
  rw [tableWord, Nat.mod_eq_of_lt v.isLt, BitVec.ofNat_toNat, BitVec.setWidth_eq]

theorem decodeTableWord_toNat (v : Word) : decodeTableWord 32 v.toNat = decode v := by
  rw [decodeTableWord, if_pos (Nat.mod_lt _ (by decide)), tableWord_toNat]

/-! ## From a word to its command and back -/

/-- R75: a command decoded from a word has a word. -/
theorem toInstr_wellFormed (op : Opcode) (v : Word) : (op.toInstr v).WellFormed := by
  cases op with
  | keyExpand | gfMul | cbcEncInit | cbcDecInit | zeroize => rfl
  | encBlock | decBlock | cbcEncChunk | cbcDecBlock => exact decide_eq_true (lenField_lt v)

section
variable {op : Opcode} {opc : Byte} {v : Word}

theorem lenField_eq_zero (h : v.extractLsb' 8 5 = 0#5) : lenField v = 0 := by
  rw [lenField, h]
  rfl

theorem commandWord_of_kszRow (h : (kszRow op opc).selects v = true) : commandWord opc 0 (kszField v) = v := by
  obtain ⟨rfl, hlen, hclear⟩ := (kszRow_selects op opc v).mp h
  simpa only [lenField_eq_zero hlen] using commandWord_of_fields hclear

theorem commandWord_of_lenRow (h : (lenRow op opc).selects v = true) : commandWord opc (lenField v) 0#2 = v := by
  obtain ⟨rfl, hksz, hclear⟩ := (lenRow_selects op opc v).mp h
  simpa only [kszField, hksz] using commandWord_of_fields hclear

theorem commandWord_of_bareRow (h : (bareRow op opc).selects v = true) : commandWord opc 0 0#2 = v := by
  obtain ⟨rfl, hlen, hksz, hclear⟩ := (bareRow_selects op opc v).mp h
  simpa only [lenField_eq_zero hlen, kszField, hksz] using commandWord_of_fields hclear

end

/-- R76: the word that selects a row is the encoding of that row's command. -/
theorem encode_toInstr {r : OpRow} {v : Word} (hr : r ∈ opRows) (hsel : r.selects v = true) :
    encode (r.opcode.toInstr v) = v := by
  simp only [opRows_eq, List.mem_cons, List.not_mem_nil, or_false] at hr
  rcases hr with rfl | rfl | rfl | rfl | rfl | rfl | rfl | rfl | rfl
  · exact commandWord_of_kszRow hsel
  · exact commandWord_of_lenRow hsel
  · exact commandWord_of_lenRow hsel
  · exact commandWord_of_bareRow hsel
  · exact commandWord_of_kszRow hsel
  · exact commandWord_of_lenRow hsel
  · exact commandWord_of_kszRow hsel
  · exact commandWord_of_lenRow hsel
  · exact commandWord_of_bareRow hsel

/-! ## The obligations -/

/-- Settles O1: a command's word selects the command's row, and its fields are the command's. -/
theorem decodeOfEncodeIsTheCommand : Obligations.DecodeOfEncodeIsTheCommand := by
  unfold Obligations.DecodeOfEncodeIsTheCommand
  exact fun i hwf => ⟨decode_encode hwf, (decodeTableWord_toNat _).trans (decode_encode hwf)⟩

/-- Settles O2: a word that selects a row is the word of the fields it carries. -/
theorem decodedWordIsTheCommandsWord : Obligations.DecodedWordIsTheCommandsWord := by
  unfold Obligations.DecodedWordIsTheCommandsWord
  intro v i hdec
  obtain ⟨r, hr, hsel, rfl⟩ := exists_row_of_decode hdec
  exact ⟨toInstr_wellFormed r.opcode v, encode_toInstr hr hsel⟩

/-- Settles O4, by decoding each of the closed words. -/
theorem sampleWordsDecode : Obligations.SampleWordsDecode := by
  unfold Obligations.SampleWordsDecode
  decide

end Sys2Proof.Machine
end

section
/-! # How a command ends (10_state.md rule R26; 60_exceptions.md rules R170, R172)

Every proof about all commands goes by the cases of `Completion`: the error completion, or the one effect a command has
where its checks pass. -/

namespace Sys2Proof.Machine

open Sys2Proof.Claims

/-- The states in which a command can end, from the state `s`. -/
inductive Completion (s : State) : Instr → State → Prop
  | error {i : Instr} {code : ErrCode} (hcode : code ≠ .none) : Completion s i (errorCompletion code s)
  | keyExpand {ksz : BitVec 2} (hidle : s.stream = .idle) (hksz : ksz ≠ 3#2) :
      Completion s (.keyExpand ksz) (complete (expandInto ksz s))
  | encBlock (hkey : s.keyValid = true) : Completion s (.encBlock 16)
      (complete { s with dout := wordsOf (cipherWith s (bytes16 s.din)), outLen := 16#5 })
  | decBlock (hkey : s.keyValid = true) : Completion s (.decBlock 16)
      (complete { s with dout := wordsOf (invCipherWith s (bytes16 s.din)), outLen := 16#5 })
  | gfMul : Completion s .gfMul (complete { s with gfRes := multiply s.gfa s.gfb })
  | encInit {ksz : BitVec 2} (hidle : s.stream = .idle) (hksz : ksz ≠ 3#2) : Completion s (.cbcEncInit ksz)
      (complete { expandInto ksz s with cv := s.iv, dout := s.iv, outLen := 16#5, stream := .enc, first := true })
  | encFull (henc : s.stream = .enc) : Completion s (.cbcEncChunk 16)
      (complete { emitChunk (some (bytes16 s.din)) s with first := false })
  | encShort {n : Nat} (henc : s.stream = .enc) (hn : n < 16) : Completion s (.cbcEncChunk n)
      (complete (closed (emitChunk (chunkBlock s.first (bytes16 s.din) n) s)))
  | decInitOpen {ksz : BitVec 2} (hidle : s.stream = .idle) (hksz : ksz ≠ 3#2) (hwhole : s.streamLen.toNat % 16 = 0)
      (hne : s.streamLen ≠ 0#32) : Completion s (.cbcDecInit ksz)
      (complete { expandInto ksz s with cv := s.iv, outLen := 0#5, stream := .dec, blkRem := s.streamLen })
  | decInitEmpty {ksz : BitVec 2} (hidle : s.stream = .idle) (hksz : ksz ≠ 3#2) (hempty : s.streamLen = 0#32) :
      Completion s (.cbcDecInit ksz) (complete { closed s with cv := s.iv, outLen := 0#5 })
  | decMiddle (hdec : s.stream = .dec) (hmore : s.blkRem ≠ 16#32) : Completion s (.cbcDecBlock 16)
      (complete { s with cv := s.din, dout := wordsOf (unchained s), blkRem := s.blkRem - 16#32, outLen := 16#5 })
  | decLast (hdec : s.stream = .dec) (hlast : s.blkRem = 16#32) : Completion s (.cbcDecBlock 16)
      (complete { closed s with cv := s.din, dout := wordsOf (unchained s),
                                outLen := BitVec.ofNat 5 (unpad (unchained s)) })
  | zeroize : Completion s .zeroize
      (complete { closed s with iv := Vector.replicate 4 0#32, cv := Vector.replicate 4 0#32,
                                din := Vector.replicate 4 0#32, dout := Vector.replicate 4 0#32, outLen := 0#5 })

/-- R172: a command that passes every check has its effect. -/
theorem exists_completion_of_no_error {i : Instr} {s : State} (hfirst : firstError i s = .none) :
    ∃ t, exec i s = .next t ∧ Completion s i t := by
  obtain ⟨hadm, hksz, hlen, hkey, hslen⟩ := firstError_eq_none_iff.mp hfirst
  cases i with
  | keyExpand ksz =>
    have hidle : s.stream = .idle := beq_iff_eq.mp hadm
    have hksz' : ksz ≠ 3#2 := beq_eq_false_iff_ne.mp hksz
    exact ⟨_, exec_keyExpand_idle hidle hksz', .keyExpand hidle hksz'⟩
  | encBlock len =>
    obtain rfl : len = 16 := by simpa [badLength] using hlen
    have hkey' : s.keyValid = true := by simpa [lacksKey] using hkey
    exact ⟨_, exec_encBlock_valid hkey', .encBlock hkey'⟩
  | decBlock len =>
    obtain rfl : len = 16 := by simpa [badLength] using hlen
    have hkey' : s.keyValid = true := by simpa [lacksKey] using hkey
    exact ⟨_, exec_decBlock_valid hkey', .decBlock hkey'⟩
  | gfMul => exact ⟨_, exec_gfMul s, .gfMul⟩
  | cbcEncInit ksz =>
    have hidle : s.stream = .idle := beq_iff_eq.mp hadm
    have hksz' : ksz ≠ 3#2 := beq_eq_false_iff_ne.mp hksz
    exact ⟨_, exec_cbcEncInit_idle hidle hksz', .encInit hidle hksz'⟩
  | cbcEncChunk n =>
    have henc : s.stream = .enc := beq_iff_eq.mp hadm
    have hn : n ≤ 16 := by simpa [badLength] using hlen
    rcases hn.lt_or_eq with hshort | rfl
    · exact ⟨_, exec_cbcEncChunk_short henc hshort, .encShort henc hshort⟩
    · exact ⟨_, exec_cbcEncChunk_full henc, .encFull henc⟩
  | cbcDecInit ksz =>
    have hidle : s.stream = .idle := beq_iff_eq.mp hadm
    have hksz' : ksz ≠ 3#2 := beq_eq_false_iff_ne.mp hksz
    by_cases hempty : s.streamLen = 0#32
    · exact ⟨_, exec_cbcDecInit_empty hidle hksz' hempty, .decInitEmpty hidle hksz' hempty⟩
    · have hwhole : s.streamLen.toNat % 16 = 0 := by simpa [badStreamLength] using hslen
      exact ⟨_, exec_cbcDecInit_open hidle hksz' hwhole hempty, .decInitOpen hidle hksz' hwhole hempty⟩
  | cbcDecBlock len =>
    obtain rfl : len = 16 := by simpa [badLength] using hlen
    have hdec : s.stream = .dec := beq_iff_eq.mp hadm
    by_cases hlast : s.blkRem = 16#32
    · exact ⟨_, exec_cbcDecBlock_last hdec hlast, .decLast hdec hlast⟩
    · exact ⟨_, exec_cbcDecBlock_middle hdec hlast, .decMiddle hdec hlast⟩
  | zeroize => exact ⟨_, exec_zeroize s, .zeroize⟩

/-- R26, R172: how a command ends. -/
theorem exists_completion (i : Instr) (s : State) : ∃ t, exec i s = .next t ∧ Completion s i t := by
  by_cases hfirst : firstError i s = .none
  · exact exists_completion_of_no_error hfirst
  · exact ⟨_, exec_of_firstError hfirst, .error hfirst⟩

theorem completion_of_exec {i : Instr} {s t : State} (h : exec i s = .next t) : Completion s i t := by
  obtain ⟨u, hu, hend⟩ := exists_completion i s
  cases hu.symm.trans h
  exact hend

end Sys2Proof.Machine
end

section
/-! # Proofs that every step keeps the relations between the fields (Safety.lean)

A command that ends a stream, by an error, by its last block or by ZEROIZE, leaves a closed state, which meets the
relations whatever came before. Every other step keeps most relations field by field. -/

namespace Sys2Proof.Machine

open Sys2Proof.Claims

/-! ## States that meet the relations on their own -/

/-- R150, R160, R174: a closed block at rest meets the relations when its error flags agree and OUTLEN fits them. -/
theorem closed_inv {s : State} (hidle : s.busy = false) (hcode : s.err = true ↔ s.errCode ≠ .none)
    (herr : s.err = true → s.outLen = 0#5) (hlen : s.outLen.toNat ≤ 16) : (closed s).Inv where
  busy_no_error h := absurd h (by simp [closed, hidle])
  busy_last h := absurd h (by simp [closed, hidle])
  err_iff_code := hcode
  err_closed h := ⟨rfl, rfl, herr h⟩
  first_enc h := absurd h Bool.false_ne_true
  rem_dec _ := rfl
  dec_rem h := absurd h (by simp [closed])
  stream_key h := absurd rfl h
  key_store h := absurd h Bool.false_ne_true
  no_key_store _ := ⟨rfl, rfl⟩
  outLen_le := hlen

/-- R170: an error completion meets the relations from every state. -/
theorem errorCompletion_inv {code : ErrCode} (hcode : code ≠ .none) (s : State) : (errorCompletion code s).Inv :=
  closed_inv (s := { s with err := true, errCode := code, outLen := 0#5, busy := false }) rfl (by simp [hcode])
    (fun _ => rfl) (by simp)

theorem platformReset_inv (s : State) : (platformReset s).Inv :=
  closed_inv (s := platformReset s) rfl (by simp [State.reset]) (fun _ => rfl) (by simp [State.reset])

/-! ## Updates that keep the relations -/

section
variable {s : State}

/-- The relations say nothing of the model's own fields. -/
theorem State.Inv.withHost (h : s.Inv) (agenda : List Event) (readData : Word) (draws : Nat) :
    (s.withHost agenda readData draws).Inv :=
  { h with }

/-- R24: an issue clears the error flags and puts the word in CMD and PENDING. -/
theorem State.Inv.issue (h : s.Inv) (v : Word) : (issue v s).Inv :=
  { h with
    busy_no_error := fun _ => rfl
    busy_last := fun _ => rfl
    err_iff_code := by simp
    err_closed := fun herr => absurd herr (by simp) }

theorem State.Inv.complete (h : s.Inv) : (complete s).Inv :=
  { h with
    busy_no_error := fun hbusy => absurd hbusy (by simp)
    busy_last := fun hbusy => absurd hbusy (by simp) }

theorem State.Inv.writeReg (h : s.Inv) (v : Word) (r : Reg) : (writeReg v s r).Inv := by
  cases r with
  | cmd => exact h.issue v
  | id | status | outLen | gfRes | blkRem => exact h
  | cv k | dout k | w k => exact h
  | gfOp | streamLen => exact { h with }
  | key k | iv k | din k => exact { h with }

theorem State.Inv.idleWrite (h : s.Inv) (off : Nat) (v : Word) : (idleWrite off v s).Inv := by
  rcases idleWrite_cases off v s with ⟨r, -, e⟩ | ⟨-, e⟩ <;> rw [e]
  · exact h.writeReg v r
  · exact h

/-- R104: an expansion with no stream and no error recorded. -/
theorem State.Inv.expandInto (h : s.Inv) {ksz : BitVec 2} (hksz : ksz ≠ 3#2) (herr : s.err = false) :
    (expandInto ksz s).Inv :=
  { h with
    err_closed := fun h' => absurd h' (by simp [herr])
    stream_key := fun _ => rfl
    key_store := fun _ => ⟨ksz, s.key, hksz, rfl, rfl⟩
    no_key_store := fun h' => absurd h' (by simp) }

end

/-! ## Completions -/

/-- A command that closes the stream without an error. -/
theorem complete_closed_inv {s : State} (herr : s.err = false) (hcode : s.errCode = .none) (hlen : s.outLen.toNat ≤ 16) :
    (complete (closed s)).Inv :=
  closed_inv (s := complete s) rfl (by simp [herr, hcode]) (fun h => absurd h (by simp [herr])) hlen

/-- R133: a chunk emits a whole block or nothing. -/
theorem emitChunk_outLen_le (block : Option Block) (s : State) : (emitChunk block s).outLen.toNat ≤ 16 := by
  cases block with
  | none => simp [emitChunk_none]
  | some p => simp [emitChunk_some]

/-- R143: what is left after a block that is not the last is a positive multiple of 16 again. -/
theorem blkRem_sub_block {v : Word} (hpos : 0 < v.toNat) (hmod : v.toNat % 16 = 0) (hmore : v ≠ 16#32) :
    0 < (v - 16#32).toNat ∧ (v - 16#32).toNat % 16 = 0 := by
  have hne : v.toNat ≠ 16 := fun h => hmore (BitVec.eq_of_toNat_eq h)
  have hsub : (v - 16#32).toNat = v.toNat - 16 :=
    BitVec.toNat_sub_of_le (by rw [BitVec.le_def, BitVec.toNat_ofNat]; omega)
  omega

section
variable {s : State} (h : s.Inv) (herr : s.err = false)
include h herr

/-- R33: a command that ends without an error may emit a whole block. -/
theorem State.Inv.emitBlock (cv dout : Vector Word 4) : State.Inv { s with cv := cv, dout := dout, outLen := 16#5 } :=
  { h with
    err_closed := fun herr' => absurd herr' (by simp [herr])
    outLen_le := by simp }

/-- R134: CBC_ENC_CHUNK of a full chunk. -/
theorem State.Inv.encFull (cv dout : Vector Word 4) :
    State.Inv { s with cv := cv, dout := dout, outLen := 16#5, first := false } :=
  { h.emitBlock herr cv dout with first_enc := fun hfirst => absurd hfirst (by simp) }

/-- R131: CBC_ENC_INIT, after its expansion. -/
theorem State.Inv.openEnc (hidle : s.stream = .idle) (hkey : s.keyValid = true) (cv dout : Vector Word 4) :
    State.Inv { s with cv := cv, dout := dout, outLen := 16#5, stream := .enc, first := true } :=
  { h.emitBlock herr cv dout with
    err_closed := fun herr' => absurd herr' (by simp [herr])
    first_enc := fun _ => rfl
    rem_dec := fun _ => h.rem_dec (by simp [hidle])
    dec_rem := fun hdec => absurd hdec (by simp)
    stream_key := fun _ => hkey }

/-- R140: CBC_DEC_INIT of a nonempty stream, after its expansion. -/
theorem State.Inv.openDec (hidle : s.stream = .idle) (hkey : s.keyValid = true) (hne : s.streamLen ≠ 0#32)
    (hmod : s.streamLen.toNat % 16 = 0) (cv : Vector Word 4) :
    State.Inv { s with cv := cv, outLen := 0#5, stream := .dec, blkRem := s.streamLen } :=
  { h with
    err_closed := fun herr' => absurd herr' (by simp [herr])
    first_enc := fun hfirst => absurd (h.first_enc hfirst) (by simp [hidle])
    rem_dec := fun hdec => absurd rfl hdec
    dec_rem := fun _ => ⟨Nat.pos_of_ne_zero fun h0 => hne (BitVec.eq_of_toNat_eq h0), hmod⟩
    stream_key := fun _ => hkey
    outLen_le := by simp }

/-- R143: CBC_DEC_BLOCK of a block that is not the last. -/
theorem State.Inv.decMiddle (hdec : s.stream = .dec) (hmore : s.blkRem ≠ 16#32) (cv dout : Vector Word 4) :
    State.Inv { s with cv := cv, dout := dout, blkRem := s.blkRem - 16#32, outLen := 16#5 } :=
  { h.emitBlock herr cv dout with
    rem_dec := fun hne => absurd hdec hne
    dec_rem := fun _ => blkRem_sub_block (h.dec_rem hdec).1 (h.dec_rem hdec).2 hmore }

/-- A command keeps the relations, however it ends. -/
theorem State.Inv.completion (hcode : s.errCode = .none) {i : Instr} {t : State} (hend : Completion s i t) : t.Inv := by
  cases hend with
  | error hcode' => exact errorCompletion_inv hcode' s
  | keyExpand hidle hksz => exact (h.expandInto hksz herr).complete
  | encBlock | decBlock => exact (h.emitBlock herr ..).complete
  | gfMul => exact { h.complete with }
  | encInit hidle hksz => exact ((h.expandInto hksz herr).openEnc herr hidle rfl ..).complete
  | encFull henc =>
    rw [emitChunk_some]
    exact (h.encFull herr ..).complete
  | encShort henc hn =>
    refine complete_closed_inv ?_ ?_ (emitChunk_outLen_le ..) <;> rw [emitChunk_eq]
    exacts [herr, hcode]
  | decInitOpen hidle hksz hwhole hne => exact ((h.expandInto hksz herr).openDec herr hidle rfl hne hwhole _).complete
  | decInitEmpty => exact complete_closed_inv (s := { s with cv := s.iv, outLen := 0#5 }) herr hcode (by simp)
  | decMiddle hdec hmore => exact (h.decMiddle herr hdec hmore ..).complete
  | decLast hdec hlast =>
    exact complete_closed_inv (s := { s with cv := s.din, dout := _, outLen := _ }) herr hcode
      ((toNat_ofNat_unpad _).trans_le (unpad_le _))
  | zeroize =>
    exact complete_closed_inv (s := { s with iv := _, cv := _, din := _, dout := _, outLen := 0#5 }) herr hcode (by simp)

end

/-! ## Events and steps -/

section
variable {s t : State}

theorem State.Inv.engineStep (h : s.Inv) (hstep : engineStep s = .next t) : t.Inv := by
  rcases engineStep_cases s with ⟨-, e⟩ | ⟨-, -, e⟩ | ⟨hbusy, i, -, e⟩ <;> rw [e] at hstep
  · cases hstep
    exact h
  · cases hstep
    exact errorCompletion_inv (by decide) s
  · have herr : s.err = false := h.busy_no_error hbusy
    have hcode : s.errCode = .none := by simpa [herr] using h.err_iff_code
    exact h.completion herr hcode (completion_of_exec hstep)

theorem State.Inv.applyEvent {e : Event} (h : s.Inv) (hnext : applyEvent e s = .next t) : t.Inv := by
  rcases applyEvent_next hnext with ⟨off, -, rfl⟩ | ⟨off, v, -, -, rfl⟩ | ⟨-, hstep⟩ | ⟨-, rfl⟩
  · rw [readAt_eq]
    exact { h with }
  · exact h.idleWrite off v
  · exact h.engineStep hstep
  · exact platformReset_inv s

theorem State.Inv.step (h : s.Inv) (hnext : step s = .next t) : t.Inv := by
  cases hagenda : s.agenda with
  | nil => exact h.engineStep ((step_nil hagenda).symm.trans hnext)
  | cons e rest =>
    have hmoved : State.Inv { s with agenda := rest } := h.withHost rest s.readData s.draws
    exact hmoved.applyEvent ((step_cons hagenda).symm.trans hnext)

end

/-! ## The obligations -/

/-- Settles O56, by the cases of the step's event and, for the engine's turn, of the command it completes. -/
theorem everyStepKeepsTheInvariant : Obligations.EveryStepKeepsTheInvariant := by
  unfold Obligations.EveryStepKeepsTheInvariant
  exact fun s t h hnext => h.step hnext

/-- Settles O55: the reset state is a closed block at rest. -/
theorem resetMeetsTheInvariant : Obligations.ResetMeetsTheInvariant := by
  unfold Obligations.ResetMeetsTheInvariant
  exact closed_inv (s := State.reset) rfl (by decide) (fun _ => rfl) (by decide)

end Sys2Proof.Machine
end

section
/-! # Proofs about the bus and the register map (rules R22 to R44, R51 to R54, R195, R196)

Every register is found at its own offset and at no other, so an access to the offset of a register is that register's
read or write; then one rule says what a write to one register does to a read of another. -/

namespace Sys2Proof.Machine

/-! ## The register map -/

/-- R22: the register found at a register's offset is that register. -/
theorem Reg.ofOffset_offset (r : Reg) : Reg.ofOffset r.offset = some r := by
  have hall : ∀ r ∈ Reg.all, Reg.ofOffset r.offset = some r := by decide +kernel
  exact hall r r.mem_all

theorem Reg.offset_injective {r r' : Reg} (h : r.offset = r'.offset) : r = r' :=
  Option.some.inj (by rw [← Reg.ofOffset_offset r, h, Reg.ofOffset_offset r'])

theorem Reg.offset_aligned (r : Reg) : r.offset % 4 = 0 := by
  cases r <;> simp only [Reg.offset] <;> omega

theorem Reg.offset_lt (r : Reg) : r.offset < 0x200 := by
  cases r <;> simp only [Reg.offset] <;> omega

/-- R22, R44: the reserved offsets. -/
def reservedOffset (off : Nat) : Prop :=
  (0x020 ≤ off ∧ off ≤ 0x03C) ∨ (0x0A0 ≤ off ∧ off ≤ 0x0FC) ∨ (0x1F0 ≤ off ∧ off ≤ 0x1FC)

theorem ofOffset_eq_none_iff {off : Nat} (hwin : off < 0x200) (halign : off % 4 = 0) :
    Reg.ofOffset off = none ↔ reservedOffset off := by
  have hwords : ∀ k < 128, Reg.ofOffset (4 * k) = none ↔ (0x020 ≤ 4 * k ∧ 4 * k ≤ 0x03C) ∨
      (0x0A0 ≤ 4 * k ∧ 4 * k ≤ 0x0FC) ∨ (0x1F0 ≤ 4 * k ∧ 4 * k ≤ 0x1FC) := by decide +kernel
  have hoff : 4 * (off / 4) = off := by omega
  simpa only [hoff, reservedOffset] using hwords (off / 4) (by omega)

/-! ## Reads while BUSY = 0 -/

theorem readAt_idle {s : State} (hidle : s.busy = false) (off : Nat) :
    readAt off s = { s with readData := idleRead s off } := by
  simp [readAt, hidle]

theorem readReg_readData (s : State) (v : Word) (r : Reg) : readReg { s with readData := v } r = readReg s r := by
  cases r <;> rfl

/-- R54: a read does not depend on the word the last one returned. -/
theorem idleRead_readData (s : State) (v : Word) (off : Nat) : idleRead { s with readData := v } off = idleRead s off := by
  unfold idleRead
  cases Reg.ofOffset off with
  | none => rfl
  | some r => exact readReg_readData s v r

theorem idleRead_reserved {off : Nat} (h : Reg.ofOffset off = none) (s : State) : idleRead s off = 0#32 := by
  rw [idleRead, h]

theorem busRead_good_idle {off : Nat} (hwin : off < 0x200) (halign : off % 4 = 0) {s : State} (hidle : s.busy = false) :
    busRead .word off s = .next { s with readData := idleRead s off } := by
  rw [busRead_good hwin halign, readAt_idle hidle]

/-- R22: a read at a register's offset returns that register. -/
theorem busRead_reg {s : State} (hidle : s.busy = false) (r : Reg) :
    busRead .word r.offset s = .next { s with readData := readReg s r } := by
  rw [busRead_good_idle r.offset_lt r.offset_aligned hidle, idleRead_of_found r.ofOffset_offset]

/-- R34: GFOP holds GFA in its low byte and GFB in the next. -/
theorem gfOp_word (a b : Byte) :
    a.zeroExtend 32 ||| (b.zeroExtend 32 <<< 8) = BitVec.ofNat 32 (a.toNat + 256 * b.toNat) := by
  have hlow : a.toNat < 2 ^ 8 := a.isLt
  have hhigh : b.toNat < 2 ^ 8 := b.isLt
  refine BitVec.eq_of_toNat_eq ?_
  have hshift : (b.zeroExtend 32 <<< 8).toNat = b.toNat <<< 8 := by
    simp [Nat.shiftLeft_eq]
    omega
  rw [BitVec.toNat_or, hshift, BitVec.toNat_setWidth, Nat.mod_eq_of_lt (by omega), Nat.lor_comm,
    ← Nat.shiftLeft_add_eq_or_of_lt hlow, BitVec.toNat_ofNat, Nat.shiftLeft_eq]
  omega

/-! ## Writes while BUSY = 0 -/

/-- R22, R54: a write at a register's offset is that register's write. -/
theorem busWrite_reg {s : State} (hidle : s.busy = false) (v : Word) (r : Reg) :
    busWrite .word r.offset v s = .next (writeReg v s r) := by
  rw [busWrite_good_idle r.offset_lt r.offset_aligned v hidle, idleWrite_of_found r.ofOffset_offset]

/-- R36, R38, R39, R41: the registers that take a written word whole. -/
def Reg.takesWord : Reg → Bool
  | .streamLen | .key _ | .iv _ | .din _ => true
  | _ => false

theorem Reg.takesWord_iff (r : Reg) : r.takesWord = true ↔
    r.offset = 0x018 ∨ (0x040 ≤ r.offset ∧ r.offset < 0x070) ∨ (0x080 ≤ r.offset ∧ r.offset < 0x090) := by
  cases r <;> simp only [Reg.takesWord, Reg.offset] <;> simp <;> omega

theorem readReg_writeReg_same {r : Reg} (hr : r.takesWord = true) (v : Word) (s : State) :
    readReg (writeReg v s r) r = v := by
  cases r with
  | streamLen => rfl
  | key k | iv k | din k => simp [readReg, writeReg]
  | _ => cases hr

/-- R34: GFOP takes the low 16 bits of a written word. -/
theorem readReg_writeReg_gfOp (v : Word) (s : State) :
    readReg (writeReg v s .gfOp) .gfOp = v &&& 0x0000FFFF#32 := by
  have hread : readReg (writeReg v s .gfOp) .gfOp =
      (laneByte v 0).zeroExtend 32 <<< (8 * 0) ||| (laneByte v 1).zeroExtend 32 <<< (8 * 1) := by
    rw [Nat.mul_zero, BitVec.shiftLeft_zero]
    rfl
  have hmask (j : Nat) : laneByte (v &&& 0x0000FFFF#32) j = laneByte v j &&& laneByte 0x0000FFFF#32 j :=
    BitVec.extractLsb'_and
  refine word_ext_lanes fun j hj => ?_
  rw [hread, hmask, laneByte_or, laneByte_shifted _ hj, laneByte_shifted _ hj]
  interval_cases j
  · exact (BitVec.or_zero).trans (BitVec.and_allOnes).symm
  · exact (BitVec.zero_or).trans (BitVec.and_allOnes).symm
  · exact (BitVec.or_zero).trans (BitVec.and_zero).symm
  · exact (BitVec.or_zero).trans (BitVec.and_zero).symm

theorem getElem_set_of_ne {n : Nat} (g : Vector Word n) {k k' : Fin n} (h : k' ≠ k) (v : Word) :
    (g.set k v)[k'] = g[k'] :=
  Vector.getElem_set_ne k.isLt k'.isLt fun hval => h (Fin.ext hval.symm)

/-- R54: a register that is not written to keeps its word, unless the write is an issue. -/
theorem readReg_writeReg_other {r r' : Reg} (hcmd : r ≠ .cmd) (hne : r' ≠ r) (v : Word) (s : State) :
    readReg (writeReg v s r) r' = readReg s r' := by
  cases r with
  | cmd => exact absurd rfl hcmd
  | gfOp =>
    cases r' with
    | gfOp => exact absurd rfl hne
    | _ => rfl
  | streamLen =>
    cases r' with
    | streamLen => exact absurd rfl hne
    | _ => rfl
  | key k =>
    cases r' with
    | key k' => exact getElem_set_of_ne s.key (fun h => hne (congrArg Reg.key h)) v
    | _ => rfl
  | iv k =>
    cases r' with
    | iv k' => exact getElem_set_of_ne s.iv (fun h => hne (congrArg Reg.iv h)) v
    | _ => rfl
  | din k =>
    cases r' with
    | din k' => exact getElem_set_of_ne s.din (fun h => hne (congrArg Reg.din h)) v
    | _ => rfl
  | _ => rfl

/-- R54: a read-only register ignores a write. -/
theorem writeReg_readOnly {r : Reg} (hcmd : r ≠ .cmd) (hgf : r ≠ .gfOp) (hr : r.takesWord = false) (v : Word) (s : State) :
    writeReg v s r = s := by
  cases r with
  | cmd => exact absurd rfl hcmd
  | gfOp => exact absurd rfl hgf
  | streamLen | key | iv | din => cases hr
  | _ => rfl

/-- R54: no write but an issue changes what another offset reads. -/
theorem idleRead_idleWrite_other {off off' : Nat} (hcmd : off ≠ 0x004) (hne : off' ≠ off) (v : Word) (s : State) :
    idleRead (idleWrite off v s) off' = idleRead s off' := by
  rcases idleWrite_cases off v s with ⟨r, hr, e⟩ | ⟨-, e⟩ <;> rw [e]
  have hroff := Reg.offset_of_found hr
  cases hr' : Reg.ofOffset off' with
  | none => rw [idleRead_reserved hr', idleRead_reserved hr']
  | some r' =>
    have hroff' := Reg.offset_of_found hr'
    rw [idleRead_of_found hr', idleRead_of_found hr']
    refine readReg_writeReg_other ?_ ?_ v s
    · rintro rfl
      exact hcmd hroff.symm
    · rintro rfl
      exact hne (hroff'.symm.trans hroff)

/-! ## Accesses that stop, and reads while BUSY = 1 -/

theorem guardAccess_outside {off : Nat} (hout : 0x200 ≤ off) (width : AccessWidth)
    (access : Host.Outcome State Fault Refusal) : guardAccess width off access = .refused .outsideWindow :=
  if_pos hout

theorem guardAccess_bad {width : AccessWidth} {off : Nat} (hwin : off < 0x200) (hbad : width ≠ .word ∨ off % 4 ≠ 0)
    (access : Host.Outcome State Fault Refusal) : guardAccess width off access = .fault .busAccess :=
  (if_neg hwin.not_ge).trans (if_pos hbad)

theorem readAt_busy {s : State} (hbusy : s.busy = true) (off : Nat) : readAt off s = busyRead s off := if_pos hbusy

theorem Reg.ofOffset_status : Reg.ofOffset 0x008 = some .status := Reg.status.ofOffset_offset

/-- R196: STATUS reads BUSY = 1 and draws elsewhere. -/
theorem busyRead_status (s : State) : busyRead s 0x008 =
    { s with readData := busyStatusWord (Config.draw s.draws), draws := s.draws + 1 } := by
  rw [busyRead, Reg.ofOffset_status]

/-- R196: at every offset after STATUS a read returns a draw. -/
theorem busyRead_draw {off : Nat} (hoff : 0x00C ≤ off) (s : State) :
    busyRead s off = { s with readData := Config.draw s.draws, draws := s.draws + 1 } := by
  unfold busyRead
  split
  · next h => exact absurd (Reg.offset_of_found h) (by rw [Reg.offset]; omega)
  · next h => exact absurd (Reg.offset_of_found h) (by rw [Reg.offset]; omega)
  · next h => exact absurd (Reg.offset_of_found h) (by rw [Reg.offset]; omega)
  · rfl

theorem busyStatusWord_busy (d : Word) : (busyStatusWord d).getLsbD 0 = true := by
  simp [busyStatusWord]

theorem busyStatusWord_draw (d : Word) {k : Nat} (hk : 0 < k) : (busyStatusWord d).getLsbD k = d.getLsbD k := by
  simp [busyStatusWord, hk.ne']

/-! ## The STATUS word -/

/-- R25: the STATUS word is its seven fields, each at its place. -/
theorem statusWord_eq_placed (s : State) : statusWord s =
    placed (BitVec.ofBool s.busy) 0 ||| placed (BitVec.ofBool s.keyValid) 1 ||| placed (BitVec.ofBool s.err) 2 |||
      placed (BitVec.ofBool s.first) 3 ||| placed s.stream.code 4 ||| placed s.errCode.code 8 ||| placed s.nr 16 := by
  simp only [statusWord, placed, BitVec.shiftLeft_zero]

theorem statusWord_fields (s : State) :
    (statusWord s).extractLsb' 0 1 = BitVec.ofBool s.busy ∧
    (statusWord s).extractLsb' 1 1 = BitVec.ofBool s.keyValid ∧
    (statusWord s).extractLsb' 2 1 = BitVec.ofBool s.err ∧
    (statusWord s).extractLsb' 3 1 = BitVec.ofBool s.first ∧
    (statusWord s).extractLsb' 4 2 = s.stream.code ∧
    (statusWord s).extractLsb' 6 2 = 0#2 ∧
    (statusWord s).extractLsb' 8 4 = s.errCode.code ∧
    (statusWord s).extractLsb' 12 4 = 0#4 ∧
    (statusWord s).extractLsb' 16 4 = s.nr ∧
    (statusWord s).extractLsb' 20 12 = 0#12 := by
  simp [statusWord_eq_placed, BitVec.extractLsb'_or, placed_field_same, placed_field_other]

/-! ## The obligations -/

/-- Settles O10, from the map's offsets and a search of the 128 word offsets of the window. -/
theorem registerMapIsOneToOne : Obligations.RegisterMapIsOneToOne := by
  unfold Obligations.RegisterMapIsOneToOne
  refine ⟨⟨rfl, rfl, rfl, rfl, rfl, rfl, rfl, rfl, fun k => rfl, fun k => rfl, fun k => rfl, fun k => rfl, fun k => rfl,
    fun k => rfl⟩, fun r => ⟨r.ofOffset_offset, r.offset_aligned, r.offset_lt⟩, fun off r h => Reg.offset_of_found h,
    fun off hwin halign => ofOffset_eq_none_iff hwin halign⟩

/-- Settles O11: an accepted read writes the host's read data and the count of draws alone, and what an idle read returns
depends on neither. -/
theorem readsHaveNoSideEffect : Obligations.ReadsHaveNoSideEffect := by
  unfold Obligations.ReadsHaveNoSideEffect
  refine ⟨fun width off s t h => ?_, fun off s hwin halign hidle => ?_⟩
  · obtain ⟨-, -, -, rfl⟩ := busRead_next h
    exact readAt_eq off s
  · refine ⟨_, busRead_good_idle hwin halign hidle, rfl, ?_⟩
    refine (busRead_good_idle hwin halign (s := { s with readData := idleRead s off }) hidle).trans ?_
    exact congrArg (fun v => Host.Outcome.next { s with readData := v }) (idleRead_readData s _ off)

/-- Settles O12: at a register's offset by the map, at a reserved offset by the absence of a register. -/
theorem idleReadsReturnTheRegisters : Obligations.IdleReadsReturnTheRegisters := by
  unfold Obligations.IdleReadsReturnTheRegisters
  intro s hidle reads
  have hreg (r : Reg) : reads r.offset (readReg s r) := busRead_reg hidle r
  have hgfOp : reads 0x010 (BitVec.ofNat 32 (s.gfa.toNat + 256 * s.gfb.toNat)) := gfOp_word s.gfa s.gfb ▸ hreg .gfOp
  have houtLen : reads 0x00C (BitVec.ofNat 32 s.outLen.toNat) := BitVec.ofNat_toNat 32 s.outLen ▸ hreg .outLen
  have hgfRes : reads 0x014 (BitVec.ofNat 32 s.gfRes.toNat) := BitVec.ofNat_toNat 32 s.gfRes ▸ hreg .gfRes
  refine ⟨hreg .id, hreg .cmd, hreg .status, houtLen, hgfOp, hgfRes, hreg .streamLen, hreg .blkRem,
    fun k => hreg (.key k), fun k => hreg (.iv k), fun k => hreg (.cv k), fun k => hreg (.din k),
    fun k => hreg (.dout k), fun k => hreg (.w k), fun off halign hres => ?_⟩
  have hwin : off < 0x200 := by omega
  rw [← idleRead_reserved ((ofOffset_eq_none_iff hwin halign).mpr hres) s]
  exact busRead_good_idle hwin halign hidle

/-- Settles O13: the write at a register's offset is that register's write, and its effect on each register's read is
known from the two registers. -/
theorem writesChangeOnlyTheirRegister : Obligations.WritesChangeOnlyTheirRegister := by
  unfold Obligations.WritesChangeOnlyTheirRegister
  refine ⟨fun v s hidle => ⟨busWrite_reg hidle v .gfOp, busWrite_reg hidle v .streamLen,
    fun k => busWrite_reg hidle v (.key k), fun k => busWrite_reg hidle v (.iv k),
    fun k => busWrite_reg hidle v (.din k)⟩, fun off v s hwin halign hidle => ?_⟩
  have hothers (hcmd : off ≠ 0x004) (off' : Nat) (_ : off' % 4 = 0) (hne : off' ≠ off) :=
    idleRead_idleWrite_other hcmd hne v s
  rcases idleWrite_cases off v s with ⟨r, hr, e⟩ | ⟨hr, e⟩
  · obtain rfl := Reg.offset_of_found hr
    refine ⟨_, busWrite_good_idle hwin halign v hidle, ?_, ?_, ?_, hothers⟩ <;> rw [e]
    · rw [idleRead_of_found hr]
      exact fun hword => readReg_writeReg_same (r.takesWord_iff.mpr hword) v s
    · rw [idleRead_of_found hr]
      intro hgf
      obtain rfl : r = .gfOp := Reg.offset_injective hgf
      exact readReg_writeReg_gfOp v s
    · rintro ⟨hcmd, hgf, hlen, hkey, hdin⟩
      refine writeReg_readOnly (fun h => hcmd (congrArg Reg.offset h)) (fun h => hgf (congrArg Reg.offset h)) ?_ v s
      exact Bool.eq_false_iff.mpr fun h => by simp [r.takesWord_iff, hlen, hkey, hdin] at h
  · have hres : reservedOffset off := (ofOffset_eq_none_iff hwin halign).mp hr
    unfold reservedOffset at hres
    exact ⟨_, busWrite_good_idle hwin halign v hidle, fun hword => by omega, fun hgf => by omega, fun _ => e, hothers⟩

/-- Settles O15, by the three answers of the bus checks and the value of BUSY. -/
theorem busAccessesThatStop : Obligations.BusAccessesThatStop := by
  unfold Obligations.BusAccessesThatStop
  refine fun width off v s => ⟨fun hout => ⟨guardAccess_outside hout .., guardAccess_outside hout ..⟩,
    fun hwin hbad => ⟨guardAccess_bad hwin hbad _, guardAccess_bad hwin hbad _⟩, ?_, ?_, ?_⟩
  · rintro hwin rfl halign hbusy
    exact busWrite_good_busy hwin halign v hbusy
  · rintro hwin rfl halign hidle
    exact ⟨_, busWrite_good_idle hwin halign v hidle⟩
  · rintro hwin rfl halign
    exact ⟨_, busRead_good hwin halign s⟩

/-- Settles O16, from the reads of ID and CMD, which do not depend on BUSY, and the two kinds of draw. -/
theorem busyReadsAreDraws : Obligations.BusyReadsAreDraws := by
  unfold Obligations.BusyReadsAreDraws
  intro s hbusy
  refine ⟨?_, ?_, ?_, fun off hlo hwin halign => ?_⟩
  · rw [busRead_good (by decide) (by decide), readAt_id]
  · rw [busRead_good (by decide) (by decide), readAt_cmd]
  · rw [busRead_good (by decide) (by decide), readAt_busy hbusy, busyRead_status]
    exact ⟨_, rfl, busyStatusWord_busy _, fun k hk => busyStatusWord_draw _ hk, rfl⟩
  · rw [busRead_good hwin halign, readAt_busy hbusy, busyRead_draw hlo]

/-- Settles O17: a field of STATUS is read back at its place, and no field reaches another place. -/
theorem statusWordLayout : Obligations.StatusWordLayout := by
  unfold Obligations.StatusWordLayout
  intro s
  obtain ⟨hbusy, hkey, herr, hfirst, hstream, hrsv6, hcode, hrsv12, hnr, hrsv20⟩ := statusWord_fields s
  refine ⟨hbusy, hkey, herr, hfirst, ?_, hrsv6, ?_, hrsv12, hnr, hrsv20⟩
  · rw [hstream]
    cases s.stream <;> rfl
  · rw [hcode]
    cases s.errCode <;> rfl

end Sys2Proof.Machine
end

section
/-! # Proofs about commands, events and runs (rules R26, R51, R59, R162, R195, R200)

What a command and an access leave unchanged is read off the ways they end. An event depends on the agenda no more than a
command does, so a run over the agenda is the run of its events; and a run goes on past an event exactly when its host may
make it, so it never stops exactly when the host conforms. -/

namespace Sys2Proof.Machine

open Sys2Proof.Claims

/-! ## What a command leaves unchanged -/

section
variable {i : Instr} {s t : State}

/-- A command keeps the model's own fields. -/
theorem exec_keeps_host (h : exec i s = .next t) :
    t.agenda = s.agenda ∧ t.readData = s.readData ∧ t.draws = s.draws := by
  have hsame : exec i s = mapNext (·.withHost s.agenda s.readData s.draws) (exec i s) :=
    exec_withHost i s s.agenda s.readData s.draws
  rw [h] at hsame
  have ht : t = t.withHost s.agenda s.readData s.draws := Host.Outcome.next.inj hsame
  rw [ht]
  exact ⟨rfl, rfl, rfl⟩

theorem Completion.busy (h : Completion s i t) : t.busy = false := by
  cases h <;> rfl

theorem Completion.keeps_host_registers (h : Completion s i t) :
    t.streamLen = s.streamLen ∧ t.gfa = s.gfa ∧ t.gfb = s.gfb ∧ t.lastCmd = s.lastCmd ∧ t.pending = s.pending := by
  cases h with
  | encShort =>
    rw [emitChunk_eq]
    exact ⟨rfl, rfl, rfl, rfl, rfl⟩
  | _ => exact ⟨rfl, rfl, rfl, rfl, rfl⟩

/-- R39, R41: of the commands only ZEROIZE writes IV and DIN. -/
theorem Completion.keeps_iv_din (h : Completion s i t) (hi : i ≠ .zeroize) : t.iv = s.iv ∧ t.din = s.din := by
  cases h with
  | zeroize => exact absurd rfl hi
  | encShort =>
    rw [emitChunk_eq]
    exact ⟨rfl, rfl⟩
  | _ => exact ⟨rfl, rfl⟩

/-- R27: KEYVALID, NR and W are kept. -/
def keepsStore (s t : State) : Prop := t.keyValid = s.keyValid ∧ t.nr = s.nr ∧ t.w = s.w

/-- R160: KEYVALID, NR, W and KEY are wiped. -/
def wipesStore (t : State) : Prop :=
  t.keyValid = false ∧ t.nr = 0#4 ∧ t.w = Vector.replicate 60 0#32 ∧ t.key = Vector.replicate 8 0#32

/-- R104: KEYVALID, NR and W hold the expansion of KEY, which is kept. -/
def expandsStore (ksz : BitVec 2) (s t : State) : Prop :=
  t.keyValid = true ∧ t.nr.toNat = 10 + 2 * ksz.toNat ∧ t.w = expandedStore ksz s.key ∧ t.key = s.key

theorem expandInto_nr_toNat_eq {ksz : BitVec 2} (hksz : ksz ≠ 3#2) (s : State) :
    (expandInto ksz s).nr.toNat = 10 + 2 * ksz.toNat := by
  rw [expandInto_nr_toNat hksz, nrOf, nkOf]
  omega

/-- R27, R43: a command keeps the store and KEY, wipes both, or expands KEY into the store. -/
theorem Completion.store (h : Completion s i t) :
    (keepsStore s t ∧ t.key = s.key) ∨ wipesStore t ∨
    ∃ ksz : BitVec 2, ksz ≠ 3#2 ∧ (i = .keyExpand ksz ∨ i = .cbcEncInit ksz ∨ i = .cbcDecInit ksz) ∧
      expandsStore ksz s t := by
  cases h with
  | error | encShort | decInitEmpty | decLast | zeroize => exact .inr (.inl ⟨rfl, rfl, rfl, rfl⟩)
  | encBlock | decBlock | gfMul | encFull | decMiddle => exact .inl ⟨⟨rfl, rfl, rfl⟩, rfl⟩
  | keyExpand _ hksz =>
    exact .inr (.inr ⟨_, hksz, .inl rfl, rfl, expandInto_nr_toNat_eq hksz s, rfl, rfl⟩)
  | encInit _ hksz =>
    exact .inr (.inr ⟨_, hksz, .inr (.inl rfl), rfl, expandInto_nr_toNat_eq hksz s, rfl, rfl⟩)
  | decInitOpen _ hksz =>
    exact .inr (.inr ⟨_, hksz, .inr (.inr rfl), rfl, expandInto_nr_toNat_eq hksz s, rfl, rfl⟩)

theorem Completion.key (h : Completion s i t) : t.key = s.key ∨ t.key = Vector.replicate 8 0#32 := by
  rcases h.store with ⟨-, hkey⟩ | ⟨-, -, -, hkey⟩ | ⟨ksz, -, -, -, -, -, hkey⟩
  · exact .inl hkey
  · exact .inr hkey
  · exact .inl hkey

/-- R172: a command that found ERR = 0 and left ERR = 1 ended in the error completion of its first error. -/
theorem exec_eq_errorCompletion_of_err (hclear : s.err = false) (h : exec i s = .next t) (herr : t.err = true) :
    firstError i s ≠ .none ∧ t = errorCompletion (firstError i s) s := by
  have hfirst : firstError i s ≠ .none := by
    intro hnone
    obtain ⟨u, hu, huerr, -⟩ := exec_of_no_error hnone
    cases hu.symm.trans h
    simp [huerr, hclear] at herr
  exact ⟨hfirst, Host.Outcome.next.inj (h.symm.trans (exec_of_firstError hfirst))⟩

/-- R162: the checks of a command read neither KEY nor W. -/
theorem firstError_key_w (i : Instr) (s : State) (key : Vector Word 8) (w : Vector Word 60) :
    firstError i { s with key := key, w := w } = firstError i s := by
  cases i <;> rfl

end

/-! ## The engine's turn -/

theorem engineStep_idle {s : State} (hidle : s.busy = false) : engineStep s = .next s := by
  rw [engineStep, hidle]
  rfl

theorem engineStep_of_decode {s : State} {i : Instr} (hbusy : s.busy = true) (hdec : decode s.pending = some i) :
    engineStep s = exec i s := by
  rw [engineStep, if_pos hbusy, completion, hdec]

/-- R26, R200: the engine's turn answers, with BUSY = 0 and the model's own fields kept. -/
theorem engineStep_answers (s : State) : ∃ t, engineStep s = .next t ∧ t.busy = false ∧ t.agenda = s.agenda := by
  rcases engineStep_cases s with ⟨hidle, e⟩ | ⟨-, -, e⟩ | ⟨-, i, -, e⟩ <;> rw [e]
  · exact ⟨s, rfl, hidle, rfl⟩
  · exact ⟨_, rfl, rfl, rfl⟩
  · obtain ⟨t, hexec, hend⟩ := exists_completion i s
    exact ⟨t, hexec, hend.busy, (exec_keeps_host hexec).1⟩

/-! ## What an access leaves unchanged -/

/-- R25, R27, R33, R37, R40, R42: the registers only the engine writes are kept. -/
def keepsEngineRegisters (s t : State) : Prop :=
  t.keyValid = s.keyValid ∧ t.nr = s.nr ∧ t.w = s.w ∧ t.stream = s.stream ∧ t.first = s.first ∧
    t.outLen = s.outLen ∧ t.blkRem = s.blkRem ∧ t.cv = s.cv ∧ t.dout = s.dout ∧ t.gfRes = s.gfRes

theorem readAt_keepsEngineRegisters (off : Nat) (s : State) : keepsEngineRegisters s (readAt off s) := by
  rw [readAt_eq]
  exact ⟨rfl, rfl, rfl, rfl, rfl, rfl, rfl, rfl, rfl, rfl⟩

theorem writeReg_keepsEngineRegisters (v : Word) (s : State) (r : Reg) : keepsEngineRegisters s (writeReg v s r) := by
  cases r <;> exact ⟨rfl, rfl, rfl, rfl, rfl, rfl, rfl, rfl, rfl, rfl⟩

theorem idleWrite_keepsEngineRegisters (off : Nat) (v : Word) (s : State) :
    keepsEngineRegisters s (idleWrite off v s) := by
  rcases idleWrite_cases off v s with ⟨r, -, e⟩ | ⟨-, e⟩ <;> rw [e]
  · exact writeReg_keepsEngineRegisters v s r
  · exact ⟨rfl, rfl, rfl, rfl, rfl, rfl, rfl, rfl, rfl, rfl⟩

theorem readAt_agenda (off : Nat) (s : State) : (readAt off s).agenda = s.agenda := by
  rw [readAt_eq]

theorem readAt_keeps_busy (off : Nat) (s : State) : (readAt off s).busy = s.busy := by
  rw [readAt_eq]

theorem idleWrite_agenda (off : Nat) (v : Word) (s : State) : (idleWrite off v s).agenda = s.agenda := by
  rcases idleWrite_cases off v s with ⟨r, -, e⟩ | ⟨-, e⟩ <;> rw [e]
  cases r <;> rfl

theorem writeReg_busy {r : Reg} (hr : r ≠ .cmd) (v : Word) (s : State) : (writeReg v s r).busy = s.busy := by
  cases r with
  | cmd => exact absurd rfl hr
  | _ => rfl

/-- R24: a write to CMD sets BUSY, and no other write does. -/
theorem idleWrite_busy {s : State} (hidle : s.busy = false) (off : Nat) (v : Word) :
    (idleWrite off v s).busy = (off == 0x004) := by
  by_cases hoff : off = 0x004
  · subst hoff
    rw [idleWrite_of_found Reg.ofOffset_cmd]
    rfl
  · rw [beq_false_of_ne hoff]
    rcases idleWrite_cases off v s with ⟨r, hfound, e⟩ | ⟨-, e⟩ <;> rw [e]
    · rw [writeReg_busy _ v s, hidle]
      rintro rfl
      exact hoff (Reg.offset_of_found hfound).symm
    · exact hidle

/-! ## Events do not depend on the agenda -/

theorem idleRead_withAgenda (off : Nat) (s : State) (es : List Event) :
    idleRead { s with agenda := es } off = idleRead s off := by
  unfold idleRead
  cases Reg.ofOffset off with
  | none => rfl
  | some r => cases r <;> rfl

theorem busyRead_withAgenda (off : Nat) (s : State) (es : List Event) :
    busyRead { s with agenda := es } off = { busyRead s off with agenda := es } := by
  unfold busyRead
  cases Reg.ofOffset off with
  | none => rfl
  | some r => cases r <;> rfl

theorem readAt_withAgenda (off : Nat) (s : State) (es : List Event) :
    readAt off { s with agenda := es } = { readAt off s with agenda := es } := by
  rcases s.busy.eq_false_or_eq_true with hbusy | hidle
  · rw [readAt_busy hbusy, readAt_busy (s := { s with agenda := es }) hbusy, busyRead_withAgenda]
  · rw [readAt_idle hidle, readAt_idle (s := { s with agenda := es }) hidle, idleRead_withAgenda]

theorem idleWrite_withAgenda (off : Nat) (v : Word) (s : State) (es : List Event) :
    idleWrite off v { s with agenda := es } = { idleWrite off v s with agenda := es } := by
  unfold idleWrite
  cases Reg.ofOffset off with
  | none => rfl
  | some r => cases r <;> rfl

theorem engineStep_withAgenda (s : State) (es : List Event) :
    engineStep { s with agenda := es } = mapNext ({ · with agenda := es }) (engineStep s) := by
  rcases engineStep_cases s with ⟨hidle, e⟩ | ⟨hbusy, hill, e⟩ | ⟨hbusy, i, hdec, e⟩
  · rw [e, engineStep_idle (s := { s with agenda := es }) hidle]
    rfl
  · rw [e, engineStep_illegal (s := { s with agenda := es }) hbusy hill]
    rfl
  · rw [e, engineStep_of_decode (s := { s with agenda := es }) hbusy hdec]
    refine (exec_withHost i s es s.readData s.draws).trans ?_
    obtain ⟨t, hexec, -⟩ := exists_completion i s
    obtain ⟨-, hread, hdraws⟩ := exec_keeps_host hexec
    simp only [hexec, mapNext, State.withHost, hread, hdraws]

theorem mapNext_guardAccess (f : State → State) (width : AccessWidth) (off : Nat)
    (access : Host.Outcome State Fault Refusal) :
    mapNext f (guardAccess width off access) = guardAccess width off (mapNext f access) := by
  simp only [guardAccess, mapNext_ite]
  rfl

theorem applyEvent_withAgenda (e : Event) (s : State) (es : List Event) :
    applyEvent e { s with agenda := es } = mapNext ({ · with agenda := es }) (applyEvent e s) := by
  cases e with
  | busRead width off =>
    rw [applyEvent, applyEvent, busRead, busRead, mapNext_guardAccess, mapNext, readAt_withAgenda]
  | busWrite width off v =>
    rw [applyEvent, applyEvent, busWrite, busWrite, mapNext_guardAccess, writeAt, writeAt, mapNext_ite, mapNext, mapNext,
      idleWrite_withAgenda]
  | engine => exact engineStep_withAgenda s es
  | reset => rfl

theorem applyEvent_agenda {e : Event} {s t : State} (h : applyEvent e s = .next t) : t.agenda = s.agenda := by
  rcases applyEvent_next h with ⟨off, -, rfl⟩ | ⟨off, v, -, -, rfl⟩ | ⟨-, hstep⟩ | ⟨-, rfl⟩
  · exact readAt_agenda off s
  · exact idleWrite_agenda off v s
  · obtain ⟨u, hu, -, hagenda⟩ := engineStep_answers s
    cases hu.symm.trans hstep
    exact hagenda
  · rfl

/-- R59: a run over an agenda is the run of its events. -/
theorem run_eq_runEvents (es : List Event) {s : State} (hempty : s.agenda = []) :
    Sys2Proof.core.run es.length { s with agenda := es } = runEvents es s := by
  induction es generalizing s with
  | nil =>
    have hsame : { s with agenda := [] } = s := by rw [← hempty]
    rw [hsame]
    rfl
  | cons e es ih =>
    have hstep : step { s with agenda := e :: es } = mapNext ({ · with agenda := es }) (applyEvent e s) :=
      (step_cons rfl).trans (applyEvent_withAgenda e s es)
    rw [runEvents, List.length_cons]
    cases happly : applyEvent e s with
    | next t =>
      rw [happly] at hstep
      rw [run_of_step_next _ hstep, ih ((applyEvent_agenda happly).trans hempty)]
      rfl
    | fault r =>
      rw [happly] at hstep
      rw [run_of_step_fault _ hstep]
      rfl
    | refused r =>
      rw [happly] at hstep
      rw [run_of_step_refused _ hstep]
      rfl

/-! ## Conforming hosts -/

theorem goodAccess_iff (width : AccessWidth) (off : Nat) :
    goodAccess width off = true ↔ off < 0x200 ∧ width = .word ∧ off % 4 = 0 := by
  rw [show 0x200 = Config.windowBytes from rfl]
  simp only [goodAccess, Bool.and_eq_true, decide_eq_true_eq]
  tauto

/-- R51, R53, R195: an event that answers is one its host may make, and `conforming` tells the BUSY it leaves. -/
theorem conforming_of_next {e : Event} {s t : State} (h : applyEvent e s = .next t) (es : List Event) :
    conforming s.busy (e :: es) = conforming t.busy es := by
  cases e with
  | busRead width off =>
    obtain ⟨hwin, hwidth, halign, rfl⟩ := busRead_next h
    rw [conforming, (goodAccess_iff width off).mpr ⟨hwin, hwidth, halign⟩, Bool.true_and, readAt_keeps_busy]
  | busWrite width off v =>
    obtain ⟨hwin, hwidth, halign, hidle, rfl⟩ := busWrite_next h
    rw [conforming, (goodAccess_iff width off).mpr ⟨hwin, hwidth, halign⟩, hidle, idleWrite_busy hidle]
    rfl
  | engine =>
    obtain ⟨u, hu, hidle, -⟩ := engineStep_answers s
    cases hu.symm.trans h
    rw [conforming, hidle]
  | reset =>
    cases h
    rfl

/-- R51, R53, R195: an event that its host may make answers. -/
theorem exists_next_of_conforming {e : Event} {s : State} {es : List Event} (h : conforming s.busy (e :: es) = true) :
    ∃ t, applyEvent e s = .next t := by
  cases e with
  | busRead width off =>
    rw [conforming, Bool.and_eq_true] at h
    obtain ⟨hwin, rfl, halign⟩ := (goodAccess_iff width off).mp h.1
    exact ⟨_, busRead_good hwin halign s⟩
  | busWrite width off v =>
    rw [conforming, Bool.and_eq_true, Bool.and_eq_true] at h
    obtain ⟨⟨hgood, hidle⟩, -⟩ := h
    obtain ⟨hwin, rfl, halign⟩ := (goodAccess_iff width off).mp hgood
    exact ⟨_, busWrite_good_idle hwin halign v (by simpa using hidle)⟩
  | engine =>
    obtain ⟨t, hstep, -⟩ := engineStep_answers s
    exact ⟨t, hstep⟩
  | reset => exact ⟨_, rfl⟩

section
variable {s : State}

theorem conforming_of_step {t : State} (h : step s = .next t) :
    conforming t.busy t.agenda = conforming s.busy s.agenda := by
  cases hagenda : s.agenda with
  | nil =>
    obtain ⟨u, hu, -, hkept⟩ := engineStep_answers s
    cases hu.symm.trans ((step_nil hagenda).symm.trans h)
    rw [hkept, hagenda, conforming, conforming]
  | cons e rest =>
    have happly := (step_cons hagenda).symm.trans h
    rw [applyEvent_agenda happly]
    exact (conforming_of_next happly rest).symm

theorem exists_step_of_conforming (h : conforming s.busy s.agenda = true) : ∃ t, step s = .next t := by
  cases hagenda : s.agenda with
  | nil =>
    obtain ⟨t, ht, -⟩ := engineStep_answers s
    exact ⟨t, (step_nil hagenda).trans ht⟩
  | cons e rest =>
    rw [hagenda] at h
    rw [step_cons hagenda]
    exact exists_next_of_conforming (s := { s with agenda := rest }) h

/-- A conforming run of any length answers. -/
theorem runsSafely_of_conforming (h : conforming s.busy s.agenda = true) : s.RunsSafely := by
  intro k
  induction k generalizing s with
  | zero => exact ⟨s, rfl⟩
  | succ k ih =>
    obtain ⟨t, hstep⟩ := exists_step_of_conforming h
    rw [run_of_step_next k hstep]
    exact ih ((conforming_of_step hstep).trans h)

theorem exists_step_of_runsSafely (h : s.RunsSafely) : ∃ t, step s = .next t ∧ t.RunsSafely := by
  obtain ⟨u, hu⟩ := h 1
  cases hstep : step s with
  | next t => exact ⟨t, rfl, fun k => run_of_step_next k hstep ▸ h (k + 1)⟩
  | fault r => cases (run_of_step_fault 0 hstep).symm.trans hu
  | refused r => cases (run_of_step_refused 0 hstep).symm.trans hu

/-- A run that never stops has a conforming agenda: each of its events answers. -/
theorem conforming_of_runsSafely (h : s.RunsSafely) : conforming s.busy s.agenda = true := by
  induction hagenda : s.agenda generalizing s with
  | nil => rw [conforming]
  | cons e rest ih =>
    obtain ⟨t, hstep, ht⟩ := exists_step_of_runsSafely h
    have hrest : t.agenda = rest := applyEvent_agenda ((step_cons hagenda).symm.trans hstep)
    rw [← hagenda, ← conforming_of_step hstep, hrest]
    exact ih ht hrest

/-- R200: a conforming run has completed its last command one step after its events. -/
theorem run_ends_idle (h : conforming s.busy s.agenda = true) :
    ∃ t, Sys2Proof.core.run (s.agenda.length + 1) s = .next t ∧ t.busy = false ∧ t.agenda = [] := by
  induction hagenda : s.agenda generalizing s with
  | nil =>
    obtain ⟨t, ht, hidle, hkept⟩ := engineStep_answers s
    exact ⟨t, run_of_step_next 0 ((step_nil hagenda).trans ht), hidle, hkept.trans hagenda⟩
  | cons e rest ih =>
    obtain ⟨t, hstep⟩ := exists_step_of_conforming h
    have hrest : t.agenda = rest := applyEvent_agenda ((step_cons hagenda).symm.trans hstep)
    rw [List.length_cons, run_of_step_next _ hstep]
    exact ih ((conforming_of_step hstep).trans h) hrest

end

/-! ## The obligations -/

/-- Settles O6, by the agenda's head and the engine's turn of a decoded word. -/
theorem stepExecutesThePendingCommand : Obligations.StepExecutesThePendingCommand := by
  unfold Obligations.StepExecutesThePendingCommand
  refine ⟨fun s i hagenda hbusy hdec => ?_, fun s rest i hagenda hbusy hdec => ?_, fun s rest hagenda hidle => ?_,
    fun s hagenda hidle => ?_, fun s i hwf => ?_⟩
  · rw [step_nil hagenda, engineStep_of_decode hbusy hdec]
  · rw [step_cons hagenda]
    exact engineStep_of_decode (s := { s with agenda := rest }) hbusy hdec
  · rw [step_cons hagenda]
    exact engineStep_idle (s := { s with agenda := rest }) hidle
  · rw [step_nil hagenda, engineStep_idle hidle]
  · rw [State.withFetchWord, tableWord_toNat, step_cons (issueNext_agenda ..)]
    exact engineStep_of_decode (s := issue (encode i) s) rfl (decode_encode hwf)

/-- Settles O7: the engine's turn answers with BUSY = 0, whatever the word. -/
theorem everyIssuedWordCompletes : Obligations.EveryIssuedWordCompletes := by
  unfold Obligations.EveryIssuedWordCompletes
  rintro s - (hagenda | ⟨rest, hagenda⟩)
  · obtain ⟨t, ht, hidle, -⟩ := engineStep_answers s
    exact ⟨t, (step_nil hagenda).trans ht, hidle⟩
  · obtain ⟨t, ht, hidle, -⟩ := engineStep_answers { s with agenda := rest }
    exact ⟨t, (step_cons hagenda).trans ht, hidle⟩

/-- Settles O19, by induction on the events: none depends on those still to come. -/
theorem agendaRunsAsItsEvents : Obligations.AgendaRunsAsItsEvents := by
  unfold Obligations.AgendaRunsAsItsEvents
  exact fun es s hempty => run_eq_runEvents es hempty

/-- Settles O48: which error a command reports depends on neither KEY nor W, and its completion wipes both, as ZEROIZE
does. -/
theorem erasureLeavesNoTraceOfTheKey : Obligations.ErasureLeavesNoTraceOfTheKey := by
  unfold Obligations.ErasureLeavesNoTraceOfTheKey
  rintro i s t key w hclear hexec (herr | rfl)
  · obtain ⟨hfirst, rfl⟩ := exec_eq_errorCompletion_of_err hclear hexec herr
    have hsame := firstError_key_w i s key w
    rw [exec_of_firstError (hsame ▸ hfirst), hsame]
    rfl
  · exact hexec

/-- Settles O52, by the cases of an event and, for the engine's turn, of how its command ends. -/
theorem onlyExpansionsAndWipesWriteTheStore : Obligations.OnlyExpansionsAndWipesWriteTheStore := by
  unfold Obligations.OnlyExpansionsAndWipesWriteTheStore
  intro e s t h
  rcases applyEvent_next h with ⟨off, -, rfl⟩ | ⟨off, v, -, -, rfl⟩ | ⟨rfl, hstep⟩ | ⟨rfl, rfl⟩
  · obtain ⟨hkey, hnr, hw, -⟩ := readAt_keepsEngineRegisters off s
    exact .inl ⟨hkey, hnr, hw⟩
  · obtain ⟨hkey, hnr, hw, -⟩ := idleWrite_keepsEngineRegisters off v s
    exact .inl ⟨hkey, hnr, hw⟩
  · rcases engineStep_cases s with ⟨-, e⟩ | ⟨hbusy, -, e⟩ | ⟨hbusy, i, hdec, e⟩ <;> rw [e] at hstep
    · cases hstep
      exact .inl ⟨rfl, rfl, rfl⟩
    · cases hstep
      exact .inr (.inl ⟨.inr ⟨rfl, hbusy⟩, rfl, rfl, rfl, rfl⟩)
    · rcases (completion_of_exec hstep).store with ⟨hkept, -⟩ | hwiped | ⟨ksz, hksz, hi, hexpanded⟩
      · exact .inl hkept
      · exact .inr (.inl ⟨.inr ⟨rfl, hbusy⟩, hwiped⟩)
      · refine .inr (.inr ⟨rfl, hbusy, ksz, hksz, ?_, hexpanded⟩)
        simpa [hdec] using hi
  · exact .inr (.inl ⟨.inl rfl, rfl, rfl, rfl, rfl⟩)

/-- Settles O53, by the ways a command ends; the model's own fields are those no command reads or writes. -/
theorem commandsKeepTheHostsRegisters : Obligations.CommandsKeepTheHostsRegisters := by
  unfold Obligations.CommandsKeepTheHostsRegisters
  intro i s t h
  have hend := completion_of_exec h
  obtain ⟨hlen, hgfa, hgfb, hlast, hpending⟩ := hend.keeps_host_registers
  obtain ⟨hagenda, hread, hdraws⟩ := exec_keeps_host h
  exact ⟨hlen, hgfa, hgfb, hlast, hpending, hagenda, hread, hdraws, hend.keeps_iv_din, fun hi => exec_gfRes hi h,
    hend.key⟩

/-- Settles O54: neither a read nor a write of any register reaches one of the engine's. -/
theorem hostAccessesKeepTheEnginesRegisters : Obligations.HostAccessesKeepTheEnginesRegisters := by
  unfold Obligations.HostAccessesKeepTheEnginesRegisters
  rintro s t e rest hagenda haccess hstep
  rw [step_cons hagenda] at hstep
  rcases haccess with ⟨width, off, rfl⟩ | ⟨width, off, v, rfl⟩
  · obtain ⟨-, -, -, rfl⟩ := busRead_next hstep
    exact readAt_keepsEngineRegisters off { s with agenda := rest }
  · obtain ⟨-, -, -, -, rfl⟩ := busWrite_next hstep
    exact idleWrite_keepsEngineRegisters off v { s with agenda := rest }

/-- Settles O57, by induction on the steps one way and on the agenda the other. -/
theorem runsAreSafeExactlyWhenTheHostConforms : Obligations.RunsAreSafeExactlyWhenTheHostConforms := by
  unfold Obligations.RunsAreSafeExactlyWhenTheHostConforms
  exact fun s => ⟨conforming_of_runsSafely, runsSafely_of_conforming⟩

/-- Settles O58, by induction on the agenda. -/
theorem conformingRunsEndIdle : Obligations.ConformingRunsEndIdle := by
  unfold Obligations.ConformingRunsEndIdle
  exact fun s h => run_ends_idle h

end Sys2Proof.Machine
end

section
/-! # Proofs about the field multiplication and the tables built on it (rules R90, R91, R96, R98)

`multiply` is linear in each operand and commutes with doubling in each, and every byte is reached from 0 by doubling and
adding 1. The laws that two or three operands share follow by induction along that. The inverse of a byte is read from the
forward table, by undoing its affine map. -/

namespace Sys2Proof.Machine

/-! ## Induction over bytes -/

/-- A byte is twice its upper seven bits, and one more if its lowest bit is set. -/
theorem byte_eq_double (a : Byte) : a = xtime (a >>> 1) ∨ a = xtime (a >>> 1) ^^^ 0x01#8 := by
  revert a; decide

/-- Every byte is reached from 0 by doubling and adding 1. -/
theorem byte_induction {P : Byte → Prop} (zero : P 0x00#8) (double : ∀ a, P a → P (xtime a))
    (succ : ∀ a, P a → P (a ^^^ 0x01#8)) (a : Byte) : P a := by
  induction hn : a.toNat using Nat.strong_induction_on generalizing a with
  | _ n ih =>
    subst hn
    by_cases h0 : a.toNat = 0
    · rwa [show a = 0x00#8 from BitVec.eq_of_toNat_eq h0]
    · have hhalf : P (a >>> 1) := ih _ (by rw [BitVec.toNat_ushiftRight, Nat.shiftRight_eq_div_pow]; omega) _ rfl
      rcases byte_eq_double a with h | h <;> rw [h]
      · exact double _ hhalf
      · exact succ _ (double _ hhalf)

/-! ## Linearity -/

theorem multiplyLoop_xtime (n : Nat) (acc a b : Byte) :
    multiplyLoop n (xtime acc) (xtime a) b = xtime (multiplyLoop n acc a b) := by
  induction n generalizing acc a b with
  | zero => rfl
  | succ n ih =>
    rw [multiplyLoop, multiplyLoop, ← ih]
    split
    · rw [xtime_xor]
    · rfl

theorem multiplyLoop_xor_left (n : Nat) (acc acc' a a' b : Byte) :
    multiplyLoop n (acc ^^^ acc') (a ^^^ a') b = multiplyLoop n acc a b ^^^ multiplyLoop n acc' a' b := by
  induction n generalizing acc acc' a a' b with
  | zero => rfl
  | succ n ih =>
    rw [multiplyLoop, multiplyLoop, multiplyLoop, ← ih, ← xtime_xor]
    split
    · rw [xor_assoc, xor_left_comm acc' a a', ← xor_assoc acc a]
    · rfl

theorem multiply_xtime_left (a b : Byte) : multiply (xtime a) b = xtime (multiply a b) := by
  rw [multiply, multiply, ← multiplyLoop_xtime]
  rfl

theorem multiply_xor_left (a a' b : Byte) : multiply (a ^^^ a') b = multiply a b ^^^ multiply a' b := by
  rw [multiply, multiply, multiply, ← multiplyLoop_xor_left, BitVec.xor_self]

theorem zero_multiply (b : Byte) : multiply 0x00#8 b = 0x00#8 := by
  revert b; decide

theorem one_multiply (b : Byte) : multiply 0x01#8 b = b := by
  revert b; decide

/-! ## The laws of the field -/

theorem multiply_xtime_right (a b : Byte) : multiply a (xtime b) = xtime (multiply a b) := by
  induction a using byte_induction with
  | zero => rw [zero_multiply, zero_multiply]; rfl
  | double a ih => rw [multiply_xtime_left, multiply_xtime_left, ih]
  | succ a ih => rw [multiply_xor_left, multiply_xor_left, one_multiply, one_multiply, ih, xtime_xor]

theorem multiply_zero (a : Byte) : multiply a 0x00#8 = 0x00#8 := by
  revert a; decide

theorem multiply_one (a : Byte) : multiply a 0x01#8 = a := by
  revert a; decide

theorem multiply_comm (a b : Byte) : multiply a b = multiply b a := by
  induction a using byte_induction with
  | zero => rw [zero_multiply, multiply_zero]
  | double a ih => rw [multiply_xtime_left, multiply_xtime_right, ih]
  | succ a ih => rw [multiply_xor_left, multiply_xor, one_multiply, multiply_one, ih]

theorem multiply_assoc (a b c : Byte) : multiply (multiply a b) c = multiply a (multiply b c) := by
  induction a using byte_induction with
  | zero => simp only [zero_multiply]
  | double a ih => simp only [multiply_xtime_left, ih]
  | succ a ih => simp only [multiply_xor_left, one_multiply, ih]

/-- R96: the affine map of the forward table. -/
def affine (b : Byte) : Byte :=
  b ^^^ b.rotateLeft 1 ^^^ b.rotateLeft 2 ^^^ b.rotateLeft 3 ^^^ b.rotateLeft 4 ^^^ 0x63#8

/-- The map that undoes the affine map. -/
def invAffine (y : Byte) : Byte :=
  (y ^^^ 0x63#8).rotateLeft 1 ^^^ (y ^^^ 0x63#8).rotateLeft 3 ^^^ (y ^^^ 0x63#8).rotateLeft 6

theorem affine_invAffine (y : Byte) : affine (invAffine y) = y := by
  revert y; decide

/-- R96: the inverse of a byte (0 for 0), read from the forward table. -/
def fieldInverse (a : Byte) : Byte := invAffine (sbox a)

theorem fieldInverse_zero : fieldInverse 0x00#8 = 0x00#8 := by decide

/-- R91, R96: what the forward table holds is an inverse, entry by entry. -/
theorem multiply_fieldInverse {a : Byte} (ha : a ≠ 0x00#8) : multiply a (fieldInverse a) = 0x01#8 := by
  revert a; decide +kernel

theorem eq_fieldInverse {a b : Byte} (ha : a ≠ 0x00#8) (h : multiply a b = 0x01#8) : b = fieldInverse a := by
  calc b = multiply (multiply a (fieldInverse a)) b := by rw [multiply_fieldInverse ha, one_multiply]
    _ = multiply (fieldInverse a) (multiply a b) := by rw [multiply_comm a, multiply_assoc]
    _ = fieldInverse a := by rw [h, multiply_one]

/-- R91: a product with a nonzero factor is 0 only if the other factor is. -/
theorem eq_zero_of_multiply_eq_zero {a b : Byte} (ha : a ≠ 0x00#8) (h : multiply a b = 0x00#8) : b = 0x00#8 := by
  calc b = multiply (fieldInverse a) (multiply a b) := by
        rw [← multiply_assoc, multiply_comm _ a, multiply_fieldInverse ha, one_multiply]
    _ = 0x00#8 := by rw [h, multiply_zero]

/-- R90: doubling is a shift, reduced when a bit is shifted out. -/
theorem xtime_eq (a : Byte) : xtime a = (a <<< 1) ^^^ (if a.getLsbD 7 then 0x1B#8 else 0x00#8) := by
  unfold xtime
  split
  · rfl
  · rw [BitVec.xor_zero]

/-- R96: the forward table is the affine map of the inverse. -/
theorem sbox_eq_affine_fieldInverse (x : Byte) : sbox x = affine (fieldInverse x) :=
  (affine_invAffine (sbox x)).symm

/-! ## The obligations -/

/-- Settles O22: the laws of zero and one entry by entry, the others by induction over a byte and from its inverse. -/
theorem multiplyFieldLaws : Obligations.MultiplyFieldLaws := by
  unfold Obligations.MultiplyFieldLaws
  refine ⟨fun a => ⟨multiply_zero a, zero_multiply a, multiply_one a, one_multiply a⟩, multiply_comm, multiply_assoc,
    multiply_xor, fun a ha => ⟨_, multiply_fieldInverse ha, fun b hb => eq_fieldInverse ha hb⟩,
    fun a b ha hb h => hb (eq_zero_of_multiply_eq_zero ha h), fun a => ?_, fun a => ?_⟩
  · rw [multiply_comm, multiply_two, xtime_eq]
  · rw [multiply_comm, multiply_three, multiply_comm a, multiply_two]

/-- Settles O23: the inverse that the statement names is unique, and the table is the affine map of it. -/
theorem sboxIsTheAffineInverse : Obligations.SboxIsTheAffineInverse := by
  unfold Obligations.SboxIsTheAffineInverse
  rintro x b (⟨rfl, rfl⟩ | ⟨hx, hb⟩) <;> rw [sbox_eq_affine_fieldInverse]
  · rw [fieldInverse_zero, affine]
  · rw [← eq_fieldInverse hx hb, affine]

/-- Settles O25, by the table's ten entries. -/
theorem roundConstantsDouble : Obligations.RoundConstantsDouble := by
  unfold Obligations.RoundConstantsDouble
  refine ⟨rfl, fun j hlo hhi => ?_⟩
  interval_cases j <;> rfl

end Sys2Proof.Machine
end


section
/-! # Proofs about the commands' results and errors (rules R104, R115 to R121, R131 to R143, R152)

The errors are the checks of the commands, one statement at a time. In a stream, a block that was xored with CV before the
cipher is given back by the inverse cipher and the same CV, whatever else the two states hold. -/

namespace Sys2Proof.Machine

open Sys2Proof.Claims

/-! ## Padding -/

/-- R133, R142: the last byte of a padded block tells its number of source bytes. -/
theorem unpad_pad {n : Nat} (hn : n < 16) (d : Block) : unpad (pad d n) = n := by
  have hlast : (pad d n)[15].toNat = 16 - n := by
    have hpast : ¬ 15 < n := by omega
    rw [pad_getElem d n 15 (by decide), if_neg hpast, BitVec.toNat_ofNat, Nat.mod_eq_of_lt (by omega)]
  rw [unpad_of_pad_byte (by omega), hlast]
  omega

/-- R133: padding leaves the source bytes alone. -/
theorem take_pad (d : Block) (n : Nat) : (pad d n).toList.take n = d.toList.take n := by
  refine List.ext_getElem (by simp) fun i hi _ => ?_
  have hlt : i < n := by
    rw [List.length_take] at hi
    omega
  simp [hlt]

/-! ## One block through the chainer -/

/-- R134: a chunk that is not the empty first one has a block, which starts with the chunk's bytes. -/
theorem exists_chunkBlock {first : Bool} {n : Nat} (hn : n ≤ 16) (hblock : ¬(first = true ∧ n = 0)) (d : Block) :
    ∃ p, chunkBlock first d n = some p ∧ p.toList.take n = d.toList.take n ∧ (n < 16 → unpad p = n) := by
  rcases hn.lt_or_eq with hshort | rfl
  · exact ⟨pad d n, chunkBlock_padded hshort hblock d, take_pad d n, fun _ => unpad_pad hshort d⟩
  · exact ⟨d, chunkBlock_full first d, rfl, fun h => absurd h (by decide)⟩

/-- R135: a chunk with a block leaves its ciphertext in DOUT and CV. -/
theorem exec_cbcEncChunk_of_block {n : Nat} {s : State} {p : Block} (henc : s.stream = .enc) (hn : n ≤ 16)
    (hp : chunkBlock s.first (bytes16 s.din) n = some p) :
    ∃ t, exec (.cbcEncChunk n) s = .next t ∧ t.dout = wordsOf (chained s p) ∧ t.cv = wordsOf (chained s p) := by
  rcases hn.lt_or_eq with hshort | rfl
  · rw [exec_cbcEncChunk_short henc hshort, hp, emitChunk_some]
    exact ⟨_, rfl, rfl, rfl⟩
  · cases hp
    rw [exec_cbcEncChunk_full henc, emitChunk_some]
    exact ⟨_, rfl, rfl, rfl⟩

/-- R135, R143: the inverse cipher and CV give back the block that CV and the cipher made a ciphertext of. -/
theorem unchained_of_chained {s d : State} {p : Block} (hw : d.w = s.w) (hnr : d.nr = s.nr) (hcv : d.cv = s.cv)
    (hdin : d.din = wordsOf (chained s p)) : unchained d = p := by
  rw [unchained, hdin, hw, hnr, hcv, bytes16_wordsOf, chained, invCipher_cipher, xorBytes_xorBytes_cancel]

/-- R143: in both cases of BLKREM a block leaves its plaintext in DOUT and its ciphertext in CV. -/
theorem exec_cbcDecBlock_of_dec {s : State} (hdec : s.stream = .dec) :
    ∃ t, exec (.cbcDecBlock 16) s = .next t ∧ t.dout = wordsOf (unchained s) ∧ t.cv = s.din ∧
      (s.blkRem = 16#32 → t.outLen.toNat = unpad (unchained s)) ∧ (s.blkRem ≠ 16#32 → t.outLen = 16#5) := by
  by_cases hlast : s.blkRem = 16#32
  · exact ⟨_, exec_cbcDecBlock_last hdec hlast, rfl, rfl, fun _ => toNat_ofNat_unpad _, fun h => absurd hlast h⟩
  · exact ⟨_, exec_cbcDecBlock_middle hdec hlast, rfl, rfl, fun h => absurd h hlast, fun _ => rfl⟩

theorem xorBytes_xorBytes_same {n : Nat} (a b c : Vector Byte n) :
    xorBytes (xorBytes a b) (xorBytes a c) = xorBytes b c := by
  ext i hi : 1
  simp only [xorBytes_getElem]
  rw [xor_comm a[i], xor_assoc, xor_cancel_left]

/-- R152: the plaintexts of two values of CV differ by their xor. -/
theorem xorBytes_unchained_cv (s : State) (x y : Vector Word 4) :
    xorBytes (unchained { s with cv := x }) (unchained { s with cv := y }) = xorBytes (bytes16 x) (bytes16 y) :=
  xorBytes_xorBytes_same ..

/-! ## The obligations -/

/-- Settles O28, from the two checks of KEY_EXPAND. -/
theorem keyExpandErrors : Obligations.KeyExpandErrors := by
  unfold Obligations.KeyExpandErrors
  refine fun ksz s => ⟨fun hopen => ?_, fun hidle hksz => ?_⟩
  · exact exec_of_not_admits (beq_false_of_ne hopen)
  · exact exec_of_badKeySize (beq_iff_eq.mpr hidle) (beq_iff_eq.mpr hksz)

/-- Settles O30, from the entries of InvMixColumns and its being MixColumns applied three times. -/
theorem invMixColumnsUndoesMixColumns : Obligations.InvMixColumnsUndoesMixColumns := by
  unfold Obligations.InvMixColumnsUndoesMixColumns
  exact ⟨fun s r c => invMixColumns_entry s r c, invMixColumns_mixColumns⟩

/-- Settles O31: either order substitutes the entry that the rotation moves. -/
theorem inverseStepsCommute : Obligations.InverseStepsCommute := by
  unfold Obligations.InverseStepsCommute
  exact fun s => matrix_ext fun r c => by simp [invSubBytes, invShiftRows]

/-- Settles O34: ENC_BLOCK that passes its checks. -/
theorem encBlockWritesTheCiphertext : Obligations.EncBlockWritesTheCiphertext := by
  unfold Obligations.EncBlockWritesTheCiphertext
  exact fun s hkey => exec_encBlock_valid hkey

/-- Settles O35: DEC_BLOCK that passes its checks. -/
theorem decBlockWritesThePlaintext : Obligations.DecBlockWritesThePlaintext := by
  unfold Obligations.DecBlockWritesThePlaintext
  exact fun s hkey => exec_decBlock_valid hkey

/-- Settles O36, from the two checks that the block commands share. -/
theorem blockCommandErrors : Obligations.BlockCommandErrors := by
  unfold Obligations.BlockCommandErrors
  refine fun len s => ⟨fun hlen => ⟨?_, ?_⟩, ?_⟩
  · exact exec_of_badLength rfl (bne_iff_ne.mpr hlen)
  · exact exec_of_badLength rfl (bne_iff_ne.mpr hlen)
  · rintro rfl hkey
    exact ⟨exec_of_lacksKey rfl ((Bool.not_eq_true' _).mpr hkey), exec_of_lacksKey rfl ((Bool.not_eq_true' _).mpr hkey)⟩

/-- Settles O37: both commands leave the same expansion. -/
theorem encInitOpensTheStream : Obligations.EncInitOpensTheStream := by
  unfold Obligations.EncInitOpensTheStream
  exact fun ksz s hidle hksz => ⟨_, _, exec_keyExpand_idle hidle hksz, exec_cbcEncInit_idle hidle hksz, rfl⟩

/-- Settles O39, by the two cases of STREAMLEN. -/
theorem decInitOpensTheStream : Obligations.DecInitOpensTheStream := by
  unfold Obligations.DecInitOpensTheStream
  refine fun ksz s hidle hksz => ⟨fun hne hwhole => ?_, fun hempty => exec_cbcDecInit_empty hidle hksz hempty⟩
  exact ⟨_, _, exec_keyExpand_idle hidle hksz, exec_cbcDecInit_open hidle hksz hwhole hne, rfl⟩

/-- Settles O41, one check of a command at a time. -/
theorem cbcErrors : Obligations.CbcErrors := by
  unfold Obligations.CbcErrors
  refine fun ksz n s => ⟨fun hopen => ⟨?_, ?_⟩, fun hidle hksz => ⟨?_, ?_⟩, fun hidle hksz hlen => ?_, fun hne => ?_,
    fun henc hn => ?_, fun hne => ?_, fun hdec hn => ?_⟩
  · exact exec_of_not_admits (beq_false_of_ne hopen)
  · exact exec_of_not_admits (beq_false_of_ne hopen)
  · exact exec_of_badKeySize (beq_iff_eq.mpr hidle) (beq_iff_eq.mpr hksz)
  · exact exec_of_badKeySize (beq_iff_eq.mpr hidle) (beq_iff_eq.mpr hksz)
  · exact exec_of_badStreamLength (beq_iff_eq.mpr hidle) (beq_false_of_ne hksz) (bne_iff_ne.mpr hlen)
  · exact exec_of_not_admits (beq_false_of_ne hne)
  · exact exec_of_badLength (beq_iff_eq.mpr henc) (decide_eq_true hn)
  · exact exec_of_not_admits (beq_false_of_ne hne)
  · exact exec_of_badLength (beq_iff_eq.mpr hdec) (bne_iff_ne.mpr hn)

/-- Settles O42, from the last byte of the padded block and the bytes before the padding. -/
theorem unpadInvertsPad : Obligations.UnpadInvertsPad := by
  unfold Obligations.UnpadInvertsPad
  exact fun d n hn => ⟨unpad_pad hn d, take_pad d n⟩

/-- Settles O43: the block that the chunk emits comes back, and it starts with the chunk's bytes. -/
theorem decBlockUndoesEncChunk : Obligations.DecBlockUndoesEncChunk := by
  unfold Obligations.DecBlockUndoesEncChunk
  intro n s henc hn hblock
  obtain ⟨p, hp, htake, hunpad⟩ := exists_chunkBlock hn hblock (bytes16 s.din)
  obtain ⟨t, ht, htdout, htcv⟩ := exec_cbcEncChunk_of_block henc hn hp
  refine ⟨t, ht, fun d hdec hw hnr hcv hdin => ?_⟩
  have hplain : unchained d = p := unchained_of_chained hw hnr hcv (hdin.trans htdout)
  obtain ⟨u, hu, hudout, hucv, hlast, hmiddle⟩ := exec_cbcDecBlock_of_dec hdec
  refine ⟨u, hu, ?_, ?_, fun hrem hshort => ?_, hmiddle⟩
  · rw [hudout, hplain, bytes16_wordsOf, htake]
  · rw [hucv, hdin, htdout, htcv]
  · rw [hlast hrem, hplain, hunpad hshort]

/-- Settles O45, by the two cases of BLKREM: CV enters the plaintext by an xor and is replaced by DIN. -/
theorem chainingValueReachesOneBlock : Obligations.ChainingValueReachesOneBlock := by
  unfold Obligations.ChainingValueReachesOneBlock
  intro s x y hdec
  have hxor : xorBytes (bytes16 (wordsOf (unchained { s with cv := x }))) (bytes16 (wordsOf (unchained { s with cv := y }))) =
      xorBytes (bytes16 x) (bytes16 y) := by
    rw [bytes16_wordsOf, bytes16_wordsOf, xorBytes_unchained_cv]
  by_cases hlast : s.blkRem = 16#32
  · exact ⟨_, _, exec_cbcDecBlock_last (s := { s with cv := x }) hdec hlast,
      exec_cbcDecBlock_last (s := { s with cv := y }) hdec hlast, hxor, rfl, rfl, rfl⟩
  · exact ⟨_, _, exec_cbcDecBlock_middle (s := { s with cv := x }) hdec hlast,
      exec_cbcDecBlock_middle (s := { s with cv := y }) hdec hlast, hxor, rfl, rfl, rfl⟩

end Sys2Proof.Machine
end

section
/-! # Proof of the stream round trip (44_cbc_chainer.md rules R136, R144, R151)

The host's events are run once for each of its procedures' parts: the words it writes, and a command with its polls. What
is left of the two loops is a function on blocks: chaining a list of plaintext blocks, which the decryption undoes block by
block, and cutting a source into padded blocks, which dropping the padding of the last one undoes. -/

namespace Sys2Proof.Machine

/-! ## Bytes as the host writes them -/

/-- R52: the first 16 bytes of a list as a block, 0 where the list has ended. -/
def blockOfBytes (b : List Byte) : Block := Vector.ofFn fun i => b.getD i.val 0#8

/-- R52: the words of a register group of four as the host writes them. -/
def hostWords (b : List Byte) : Vector Word 4 := Vector.ofFn fun k => hostWord b k.val

/-- R52: the words of KEY as the host writes them. -/
def hostKey (key : List Byte) : Vector Word 8 := Vector.ofFn fun k => hostWord key k.val

theorem laneByte_hostWord (b : List Byte) (k j : Nat) (hj : j < 4) :
    laneByte (hostWord b k) j = b.getD (4 * k + j) 0#8 := by
  rw [hostWord, laneByte_packWord _ j hj]
  interval_cases j <;> rfl

theorem bytes16_hostWords (b : List Byte) : bytes16 (hostWords b) = blockOfBytes b := by
  ext i hi : 1
  have hbyte : 4 * (i / 4) + i % 4 = i := by omega
  rw [bytes16_getElem _ i hi]
  simp [hostWords, blockOfBytes, laneByte_hostWord b _ _ (Nat.mod_lt i (by decide : 0 < 4)), hbyte]

/-- A list of 16 bytes is its block. -/
theorem toList_blockOfBytes {b : List Byte} (hlen : b.length = 16) : (blockOfBytes b).toList = b := by
  refine List.ext_getElem (by simp [hlen]) fun i hi hi' => ?_
  simp [blockOfBytes, hi']

theorem blockOfBytes_toList (p : Block) : blockOfBytes p.toList = p := by
  ext i hi : 1
  simp [blockOfBytes]

/-! ## The host's writes -/

theorem runEvents_append (es es' : List Event) (s : State) :
    runEvents (es ++ es') s = andThen (runEvents es s) (runEvents es') := by
  induction es generalizing s with
  | nil => rfl
  | cons e es ih =>
    rw [List.cons_append, runEvents, runEvents]
    cases applyEvent e s with
    | next t => exact ih t
    | fault r => rfl
    | refused r => rfl

theorem runEvents_append_of_next {es : List Event} {s t : State} (h : runEvents es s = .next t) (es' : List Event) :
    runEvents (es ++ es') s = runEvents es' t := by
  rw [runEvents_append, h]
  rfl

theorem applyEvent_wr {s : State} (hidle : s.busy = false) (r : Reg) (v : Word) :
    applyEvent (wr r v) s = .next (writeReg v s r) :=
  busWrite_reg hidle v r

/-- A register group with the words at `ks` replaced. -/
def setWords {n : Nat} (ks : List (Fin n)) (f : Fin n → Word) (g : Vector Word n) : Vector Word n :=
  ks.foldl (fun g (k : Fin n) => g.set k (f k)) g

theorem setWords_getElem {n : Nat} (ks : List (Fin n)) (f : Fin n → Word) (g : Vector Word n) (k : Fin n) :
    (setWords ks f g)[k] = if k ∈ ks then f k else g[k] := by
  induction ks generalizing g with
  | nil => simp [setWords]
  | cons j ks ih =>
    have hstep : setWords (j :: ks) f g = setWords ks f (g.set j (f j)) := rfl
    rw [hstep, ih]
    by_cases hkj : k = j
    · subst hkj
      simp
    · rw [getElem_set_of_ne g hkj]
      simp [hkj]

theorem setWords_finRange {n : Nat} (f : Fin n → Word) (g : Vector Word n) :
    setWords (List.finRange n) f g = Vector.ofFn f := by
  ext1 i hi
  have h := setWords_getElem (List.finRange n) f g ⟨i, hi⟩
  simpa using h

/-- R84: the host's writes to the words of one register group. -/
theorem runEvents_writeGroup {n : Nat} {reg : Fin n → Reg} {upd : Vector Word n → State}
    (hidle : ∀ g, (upd g).busy = false) (hwrite : ∀ g k v, writeReg v (upd g) (reg k) = upd (g.set k v))
    (ks : List (Fin n)) (f : Fin n → Word) (g : Vector Word n) :
    runEvents (ks.map fun k => wr (reg k) (f k)) (upd g) = .next (upd (setWords ks f g)) := by
  induction ks generalizing g with
  | nil => rfl
  | cons k ks ih =>
    rw [List.map_cons, runEvents, applyEvent_wr (hidle g), hwrite]
    exact ih _

section
variable {s : State} (hidle : s.busy = false)
include hidle

theorem runEvents_writeDin (b : List Byte) :
    runEvents (writeDin b) s = .next { s with din := hostWords b } := by
  rw [hostWords, ← setWords_finRange _ s.din]
  exact runEvents_writeGroup (reg := .din) (upd := fun g => { s with din := g }) (fun _ => hidle) (fun _ _ _ => rfl) ..

theorem runEvents_writeIv (b : List Byte) :
    runEvents (writeIv b) s = .next { s with iv := hostWords b } := by
  rw [hostWords, ← setWords_finRange _ s.iv]
  exact runEvents_writeGroup (reg := .iv) (upd := fun g => { s with iv := g }) (fun _ => hidle) (fun _ _ _ => rfl) ..

/-- R136, R144: the key registers that a key's bytes fill, the others as they were. -/
theorem runEvents_writeKey (key : List Byte) :
    ∃ g : Vector Word 8, runEvents (writeKey key) s = .next { s with key := g } ∧
      ∀ k : Fin 8, 4 * k.val < key.length → g[k] = (hostKey key)[k] := by
  refine ⟨_, runEvents_writeGroup (reg := .key) (upd := fun g => { s with key := g }) (fun _ => hidle)
    (fun _ _ _ => rfl) _ _ s.key, fun k hk => ?_⟩
  rw [setWords_getElem, if_pos (by simpa using hk)]
  simp [hostKey]

end

/-! ## A command with its polls -/

/-- The two states differ in the host's read data and the count of draws alone. -/
def SameBlock (s t : State) : Prop := ∃ readData draws, t = s.withHost s.agenda readData draws

theorem SameBlock.refl (s : State) : SameBlock s s := ⟨s.readData, s.draws, rfl⟩

theorem SameBlock.trans {s t u : State} (h : SameBlock s t) (h' : SameBlock t u) : SameBlock s u := by
  obtain ⟨readData, draws, rfl⟩ := h
  obtain ⟨readData', draws', rfl⟩ := h'
  exact ⟨readData', draws', rfl⟩

theorem sameBlock_readAt (off : Nat) (s : State) : SameBlock s (readAt off s) :=
  ⟨_, _, readAt_eq off s⟩

theorem applyEvent_rd (r : Reg) (s : State) : applyEvent (rd r) s = .next (readAt r.offset s) :=
  busRead_good r.offset_lt r.offset_aligned s

theorem runEvents_reads (n : Nat) (r : Reg) (s : State) :
    ∃ t, runEvents (List.replicate n (rd r)) s = .next t ∧ SameBlock s t := by
  induction n generalizing s with
  | zero => exact ⟨s, rfl, .refl s⟩
  | succ n ih =>
    obtain ⟨t, ht, hsame⟩ := ih (readAt r.offset s)
    rw [List.replicate_succ, runEvents, applyEvent_rd]
    exact ⟨t, ht, (sameBlock_readAt _ s).trans hsame⟩

/-- A completion runs alike in states that differ in the host's fields. -/
theorem exec_of_sameBlock {i : Instr} {s s' t : State} (hsame : SameBlock s s') (hexec : exec i s = .next t) :
    ∃ t', exec i s' = .next t' ∧ SameBlock t t' := by
  obtain ⟨readData, draws, rfl⟩ := hsame
  refine ⟨t.withHost s.agenda readData draws, ?_, readData, draws, ?_⟩
  · rw [exec_withHost, hexec]
    rfl
  · rw [(exec_keeps_host hexec).1]

/-- R84: `run` of a command leaves what its completion leaves, up to the polls' read data. -/
theorem runEvents_run {i : Instr} (hwf : i.WellFormed) (polls : Nat) {s t : State} (hidle : s.busy = false)
    (hexec : exec i (issue (encode i) s) = .next t) :
    ∃ u, runEvents (run i polls) s = .next u ∧ SameBlock t u := by
  obtain ⟨s', hreads, hsame⟩ := runEvents_reads polls .status (issue (encode i) s)
  obtain ⟨t', ht', hsame'⟩ := exec_of_sameBlock hsame hexec
  have hflight : s'.busy = true ∧ s'.pending = encode i := by
    obtain ⟨readData, draws, rfl⟩ := hsame
    exact ⟨rfl, rfl⟩
  have hdec : decode s'.pending = some i := hflight.2 ▸ decode_encode hwf
  have hturn : applyEvent .engine s' = .next t' := by
    rw [applyEvent, engineStep_of_decode hflight.1 hdec, ht']
  refine ⟨readAt Reg.status.offset t', ?_, hsame'.trans (sameBlock_readAt _ t')⟩
  rw [run, runEvents, applyEvent_wr hidle]
  refine (runEvents_append_of_next hreads _).trans ?_
  rw [runEvents, hturn]
  rfl

/-! ## The loops as functions on blocks -/

/-- R134: the plaintext blocks of a list of chunks. -/
def plainBlocks : Bool → List (List Byte) → List Block
  | _, [] => []
  | first, chunk :: rest => (chunkBlock first (blockOfBytes chunk) chunk.length).toList ++ plainBlocks false rest

/-- R135: the ciphertext blocks of plaintext blocks, each xored with the one before. -/
def chainBlocks (encrypt : Block → Block) : Block → List Block → List Block
  | _, [] => []
  | cv, p :: ps => encrypt (xorBytes p cv) :: chainBlocks encrypt (encrypt (xorBytes p cv)) ps

/-- The bytes of a list of blocks. -/
def blocksBytes (bs : List Block) : List Byte := bs.flatMap (·.toList)

/-- R142, R144: what decryption emits of the plaintext blocks: all bytes, but for the padding of the last. -/
def emitPlain : List Block → List Byte
  | [] => []
  | [p] => p.toList.take (unpad p)
  | p :: q :: ps => p.toList ++ emitPlain (q :: ps)

theorem emitPlain_cons {ps : List Block} (h : ps ≠ []) (p : Block) : emitPlain (p :: ps) = p.toList ++ emitPlain ps := by
  obtain ⟨q, qs, rfl⟩ := List.exists_cons_of_ne_nil h
  rfl

theorem chainBlocks_length (encrypt : Block → Block) (cv : Block) (ps : List Block) :
    (chainBlocks encrypt cv ps).length = ps.length := by
  induction ps generalizing cv with
  | nil => rfl
  | cons p ps ih => rw [chainBlocks, List.length_cons, List.length_cons, ih]

theorem blocksBytes_cons (b : Block) (bs : List Block) : blocksBytes (b :: bs) = b.toList ++ blocksBytes bs := rfl

theorem blocksBytes_length (bs : List Block) : (blocksBytes bs).length = 16 * bs.length := by
  induction bs with
  | nil => rfl
  | cons b bs ih =>
    rw [blocksBytes_cons, List.length_append, ih, List.length_cons, Vector.length_toList]
    omega

/-- R144: the ciphertext is cut into its blocks again. -/
theorem takeChunks_blocksBytes (bs : List Block) :
    takeChunks bs.length (blocksBytes bs) = bs.map (·.toList) ++ [[]] := by
  induction bs with
  | nil => rfl
  | cons b bs ih =>
    have hlen : b.toList.length = 16 := b.length_toList
    have hlong : ¬(blocksBytes (b :: bs)).length < 16 := by
      rw [blocksBytes_length, List.length_cons]
      omega
    rw [List.length_cons, takeChunks, if_neg hlong, blocksBytes_cons, List.take_left' hlen, List.drop_left' hlen, ih]
    rfl

theorem chunksOf_blocksBytes (bs : List Block) : chunksOf (blocksBytes bs) = bs.map (·.toList) ++ [[]] := by
  rw [chunksOf, blocksBytes_length, Nat.mul_div_cancel_left _ (by decide), takeChunks_blocksBytes]

/-! ## Cutting a source into blocks -/

section
variable {n : Nat} {src : List Byte}

/-- R136: a longer source starts with a full chunk. -/
theorem takeChunks_full (h : src.length / 16 = n + 1) :
    takeChunks (n + 1) src = src.take 16 :: takeChunks n (src.drop 16) ∧ (src.take 16).length = 16 ∧
      (src.drop 16).length / 16 = n := by
  have hlong : ¬src.length < 16 := by omega
  refine ⟨by rw [takeChunks, if_neg hlong], ?_, ?_⟩
  · rw [List.length_take]
    omega
  · rw [List.length_drop]
    omega

theorem plainBlocks_full {chunk : List Byte} (hlen : chunk.length = 16) (first : Bool) (rest : List (List Byte)) :
    plainBlocks first (chunk :: rest) = blockOfBytes chunk :: plainBlocks false rest := by
  rw [plainBlocks, hlen, chunkBlock_full]
  rfl

theorem plainBlocks_short {chunk : List Byte} (hlen : chunk.length < 16) {first : Bool}
    (hblock : ¬(first = true ∧ chunk.length = 0)) :
    plainBlocks first [chunk] = [pad (blockOfBytes chunk) chunk.length] := by
  rw [plainBlocks, chunkBlock_padded hlen hblock]
  rfl

/-- R133, R134: a source has one block more than its full chunks, unless it is the empty first chunk. -/
theorem plainBlocks_length {first : Bool} (h : src.length / 16 = n) (hblock : ¬(first = true ∧ src.length = 0)) :
    (plainBlocks first (takeChunks n src)).length = n + 1 := by
  induction n generalizing first src with
  | zero => rw [takeChunks, plainBlocks_short (by omega) hblock, List.length_singleton]
  | succ n ih =>
    obtain ⟨htake, hfull, hrest⟩ := takeChunks_full h
    rw [htake, plainBlocks_full hfull, List.length_cons, ih hrest (by simp)]

/-- R133, R142: dropping the padding of the last block gives the source back. -/
theorem emitPlain_plainBlocks {first : Bool} (h : src.length / 16 = n) (hblock : ¬(first = true ∧ src.length = 0)) :
    emitPlain (plainBlocks first (takeChunks n src)) = src := by
  induction n generalizing first src with
  | zero =>
    have hlen : src.length < 16 := by omega
    rw [takeChunks, plainBlocks_short hlen hblock, emitPlain, unpad_pad hlen, take_pad]
    refine List.ext_getElem (by simp; omega) fun i hi hi' => ?_
    simp [blockOfBytes, hi']
  | succ n ih =>
    obtain ⟨htake, hfull, hrest⟩ := takeChunks_full h
    have hne : plainBlocks false (takeChunks n (src.drop 16)) ≠ [] :=
      List.ne_nil_of_length_eq_add_one (plainBlocks_length hrest (by simp))
    rw [htake, plainBlocks_full hfull, emitPlain_cons hne, toList_blockOfBytes hfull, ih hrest (by simp),
      List.take_append_drop]

end

/-! ## One command in an open stream -/

/-- R135: the cipher under the expansion in W. -/
def cipherUnder (w : Vector Word 60) (nr : BitVec 4) (b : Block) : Block := cipher b (storedWords w) nr.toNat

/-- An idle block in the stream `stream`, with the expansion `w`, `nr` and the chaining value `cv`. -/
structure InStream (stream : Stream) (w : Vector Word 60) (nr : BitVec 4) (cv : Block) (s : State) : Prop where
  idle : s.busy = false
  stream_eq : s.stream = stream
  w_eq : s.w = w
  nr_eq : s.nr = nr
  cv_eq : bytes16 s.cv = cv

/-- R150: the end of the stream: the key wiped, the block idle. -/
structure Ended (s : State) : Prop where
  stream_eq : s.stream = .idle
  key_eq : s.key = Vector.replicate 8 0#32
  keyValid_eq : s.keyValid = false

/-- R33: a whole block is emitted. -/
theorem emitted_block {s : State} {b : Block} (hdout : s.dout = wordsOf b) (hlen : s.outLen = 16#5) :
    emitted s = b.toList := by
  rw [emitted, hdout, hlen, bytes16_wordsOf]
  exact List.take_of_length_le b.length_toList.le

theorem emitted_nothing {s : State} (hlen : s.outLen = 0#5) : emitted s = [] := by
  rw [emitted, hlen]
  rfl

section
variable {w : Vector Word 60} {nr : BitVec 4} {cv : Block} {s : State}

theorem chained_inStream {stream : Stream} (h : InStream stream w nr cv s) (p : Block) :
    Claims.chained s p = cipherUnder w nr (xorBytes p cv) := by
  rw [Claims.chained, h.w_eq, h.nr_eq, h.cv_eq, cipherUnder]

/-- R134: the host's events for one chunk. -/
def chunkEvents (polls : Nat) (fill chunk : List Byte) : List Event :=
  writeDin ((chunk ++ fill).take 16) ++ run (.cbcEncChunk chunk.length) polls

/-- R134: a full chunk emits its ciphertext and keeps the stream open. -/
theorem runEvents_fullChunk (polls : Nat) (fill : List Byte) {chunk : List Byte} (hlen : chunk.length = 16)
    (h : InStream .enc w nr cv s) :
    ∃ u, runEvents (chunkEvents polls fill chunk) s = .next u ∧ u.err = false ∧ u.first = false ∧
      emitted u = (cipherUnder w nr (xorBytes (blockOfBytes chunk) cv)).toList ∧
      InStream .enc w nr (cipherUnder w nr (xorBytes (blockOfBytes chunk) cv)) u := by
  obtain ⟨u, hu, readData, draws, rfl⟩ := runEvents_run (i := .cbcEncChunk 16) rfl polls
    (s := { s with din := hostWords chunk }) h.idle (exec_cbcEncChunk_full h.stream_eq)
  have hcipher : Claims.chained s (bytes16 (hostWords chunk)) = cipherUnder w nr (xorBytes (blockOfBytes chunk) cv) := by
    rw [chained_inStream h, bytes16_hostWords]
  have hevents : chunkEvents polls fill chunk = writeDin chunk ++ run (.cbcEncChunk 16) polls := by
    rw [chunkEvents, List.take_left' hlen, hlen]
  rw [hevents]
  exact ⟨_, (runEvents_append_of_next (runEvents_writeDin h.idle chunk) _).trans hu, rfl, rfl,
    emitted_block (congrArg wordsOf hcipher) rfl, rfl, h.stream_eq, h.w_eq, h.nr_eq,
    (bytes16_wordsOf _).trans hcipher⟩

/-- R133: the bytes that fill DIN after a short chunk do not reach its block. -/
theorem chunkBlock_fill {chunk : List Byte} (hlen : chunk.length < 16) (fill : List Byte) (first : Bool) :
    chunkBlock first (blockOfBytes ((chunk ++ fill).take 16)) chunk.length =
      chunkBlock first (blockOfBytes chunk) chunk.length := by
  have hpad : pad (blockOfBytes ((chunk ++ fill).take 16)) chunk.length = pad (blockOfBytes chunk) chunk.length := by
    ext i hi : 1
    rw [pad_getElem _ _ i hi, pad_getElem _ _ i hi]
    split
    · next hchunk => simp [blockOfBytes, List.getElem?_append_left hchunk]
    · rfl
  rw [chunkBlock, chunkBlock, if_neg hlen.ne, if_neg hlen.ne, hpad]

/-- R134: a short chunk emits the ciphertext of its padded block, if it has one, and ends the stream. -/
theorem runEvents_shortChunk (polls : Nat) (fill : List Byte) {chunk : List Byte} (hlen : chunk.length < 16)
    (h : InStream .enc w nr cv s) :
    ∃ u, runEvents (chunkEvents polls fill chunk) s = .next u ∧ u.err = false ∧
      emitted u = blocksBytes (chainBlocks (cipherUnder w nr) cv (plainBlocks s.first [chunk])) ∧ Ended u := by
  have hexec := exec_cbcEncChunk_short (n := chunk.length)
    (s := issue (encode (.cbcEncChunk chunk.length)) { s with din := hostWords ((chunk ++ fill).take 16) })
    h.stream_eq hlen
  rw [issue_din, bytes16_hostWords, chunkBlock_fill hlen, issue_first] at hexec
  have hwf : (Instr.cbcEncChunk chunk.length).WellFormed := decide_eq_true (by omega)
  obtain ⟨u, hu, readData, draws, rfl⟩ := runEvents_run hwf polls
    (s := { s with din := hostWords ((chunk ++ fill).take 16) }) h.idle hexec
  have hrun := (runEvents_append_of_next (runEvents_writeDin h.idle _) _).trans hu
  rw [plainBlocks, plainBlocks, List.append_nil]
  cases hblock : chunkBlock s.first (blockOfBytes chunk) chunk.length with
  | none =>
    rw [hblock, emitChunk_none] at hrun
    exact ⟨_, hrun, rfl, emitted_nothing rfl, rfl, rfl, rfl⟩
  | some p =>
    rw [hblock, emitChunk_some] at hrun
    refine ⟨_, hrun, rfl, ?_, rfl, rfl, rfl⟩
    exact (emitted_block (congrArg wordsOf (chained_inStream h p)) rfl).trans (List.append_nil _).symm

/-- R135, R143: the plaintext of a ciphertext block under the same expansion and chaining value. -/
theorem unchained_inStream {stream : Stream} (h : InStream stream w nr cv s) (p : Block) (v : Word) :
    Claims.unchained (issue v { s with din := hostWords (cipherUnder w nr (xorBytes p cv)).toList }) = p := by
  rw [Claims.unchained, issue_din, issue_w, issue_nr, issue_cv, bytes16_hostWords, blockOfBytes_toList, h.w_eq, h.nr_eq,
    h.cv_eq, cipherUnder, invCipher_cipher, xorBytes_xorBytes_cancel]

/-- R144: the host's events for one ciphertext block. -/
def blockEvents (polls : Nat) (block : List Byte) : List Event := writeDin block ++ run (.cbcDecBlock 16) polls

/-- R143: a block that is not the last emits its plaintext and keeps the stream open. -/
theorem runEvents_middleBlock (polls : Nat) (p : Block) (h : InStream .dec w nr cv s) (hmore : s.blkRem ≠ 16#32) :
    ∃ u, runEvents (blockEvents polls (cipherUnder w nr (xorBytes p cv)).toList) s = .next u ∧ u.err = false ∧
      emitted u = p.toList ∧ InStream .dec w nr (cipherUnder w nr (xorBytes p cv)) u ∧ u.blkRem = s.blkRem - 16#32 := by
  have hexec := exec_cbcDecBlock_middle
    (s := issue (encode (.cbcDecBlock 16)) { s with din := hostWords (cipherUnder w nr (xorBytes p cv)).toList })
    h.stream_eq hmore
  rw [unchained_inStream h] at hexec
  obtain ⟨u, hu, readData, draws, rfl⟩ := runEvents_run (i := .cbcDecBlock 16) rfl polls
    (s := { s with din := hostWords (cipherUnder w nr (xorBytes p cv)).toList }) h.idle hexec
  refine ⟨_, (runEvents_append_of_next (runEvents_writeDin h.idle _) _).trans hu, rfl, emitted_block rfl rfl,
    ⟨rfl, h.stream_eq, h.w_eq, h.nr_eq, ?_⟩, rfl⟩
  exact (bytes16_hostWords _).trans (blockOfBytes_toList _)

/-- R142, R143: the last block emits its plaintext without the padding and ends the stream. -/
theorem runEvents_lastBlock (polls : Nat) (p : Block) (h : InStream .dec w nr cv s) (hlast : s.blkRem = 16#32) :
    ∃ u, runEvents (blockEvents polls (cipherUnder w nr (xorBytes p cv)).toList) s = .next u ∧ u.err = false ∧
      emitted u = p.toList.take (unpad p) ∧ Ended u := by
  have hexec := exec_cbcDecBlock_last
    (s := issue (encode (.cbcDecBlock 16)) { s with din := hostWords (cipherUnder w nr (xorBytes p cv)).toList })
    h.stream_eq hlast
  rw [unchained_inStream h] at hexec
  obtain ⟨u, hu, readData, draws, rfl⟩ := runEvents_run (i := .cbcDecBlock 16) rfl polls
    (s := { s with din := hostWords (cipherUnder w nr (xorBytes p cv)).toList }) h.idle hexec
  refine ⟨_, (runEvents_append_of_next (runEvents_writeDin h.idle _) _).trans hu, rfl, ?_, rfl, rfl, rfl⟩
  exact congrArg₂ (fun (b : Block) n => b.toList.take n) (bytes16_wordsOf p) (toNat_ofNat_unpad p)

end

/-! ## The host's loops -/

theorem encryptChunks_of_next {polls : Nat} {fill chunk : List Byte} {s u : State}
    (hu : runEvents (chunkEvents polls fill chunk) s = .next u) (herr : u.err = false) (rest : List (List Byte))
    (out : List Byte) : encryptChunks polls fill (chunk :: rest) s out =
      if chunk.length < 16 then .next ⟨u, out ++ emitted u, .none⟩
      else encryptChunks polls fill rest u (out ++ emitted u) := by
  rw [encryptChunks, ← chunkEvents, hu, andThen, if_neg (by simp [herr])]

theorem decryptBlocks_of_next {polls : Nat} {block : List Byte} {s u : State} (hdec : s.stream = .dec)
    (hu : runEvents (blockEvents polls block) s = .next u) (herr : u.err = false) (rest : List (List Byte))
    (out : List Byte) : decryptBlocks polls (block :: rest) s out = decryptBlocks polls rest u (out ++ emitted u) := by
  rw [decryptBlocks, if_neg (not_not_intro hdec), ← blockEvents, hu, andThen, if_neg (by simp [herr])]

/-- R144: once the stream has ended, so does the loop. -/
theorem decryptBlocks_of_ended (polls : Nat) (block : List Byte) {s : State} (h : Ended s) (out : List Byte) :
    decryptBlocks polls [block] s out = .next ⟨s, out, .none⟩ := by
  rw [decryptBlocks, if_pos (by simp [h.stream_eq])]

section
variable {w : Vector Word 60} {nr : BitVec 4}

/-- R136: the loop of `encryptStream` emits the chained blocks of its source. -/
theorem encryptChunks_emits (polls : Nat) (fill : List Byte) {n : Nat} {src : List Byte} (hn : src.length / 16 = n)
    {cv : Block} {s : State} (h : InStream .enc w nr cv s) (out : List Byte) :
    ∃ r, encryptChunks polls fill (takeChunks n src) s out = .next r ∧ r.error = .none ∧ Ended r.state ∧
      r.output = out ++ blocksBytes (chainBlocks (cipherUnder w nr) cv (plainBlocks s.first (takeChunks n src))) := by
  induction n generalizing src cv s out with
  | zero =>
    have hlen : src.length < 16 := by omega
    obtain ⟨u, hu, herr, hemit, hended⟩ := runEvents_shortChunk polls fill hlen h
    rw [takeChunks, encryptChunks_of_next hu herr, if_pos hlen, ← hemit]
    exact ⟨_, rfl, rfl, hended, rfl⟩
  | succ n ih =>
    obtain ⟨htake, hfull, hrest⟩ := takeChunks_full hn
    obtain ⟨u, hu, herr, hfirst, hemit, hnext⟩ := runEvents_fullChunk polls fill hfull h
    obtain ⟨r, hr, herror, hended, hout⟩ := ih hrest hnext (out ++ emitted u)
    rw [htake, encryptChunks_of_next hu herr, if_neg (by omega)]
    refine ⟨r, hr, herror, hended, ?_⟩
    rw [hout, hemit, hfirst, plainBlocks_full hfull, chainBlocks, blocksBytes_cons, List.append_assoc]

/-- R144: the loop of `decryptStream` emits the plaintext of chained blocks. -/
theorem decryptBlocks_emits (polls : Nat) {ps : List Block} (hne : ps ≠ []) {cv : Block} {s : State}
    (h : InStream .dec w nr cv s) (hrem : s.blkRem.toNat = 16 * ps.length) (out : List Byte) :
    ∃ r, decryptBlocks polls ((chainBlocks (cipherUnder w nr) cv ps).map (·.toList) ++ [[]]) s out = .next r ∧
      r.error = .none ∧ Ended r.state ∧ r.output = out ++ emitPlain ps := by
  induction ps generalizing cv s out with
  | nil => exact absurd rfl hne
  | cons p ps ih =>
    rw [chainBlocks, List.map_cons, List.cons_append]
    by_cases hps : ps = []
    · subst hps
      have hlast : s.blkRem = 16#32 := BitVec.eq_of_toNat_eq hrem
      obtain ⟨u, hu, herr, hemit, hended⟩ := runEvents_lastBlock polls p h hlast
      rw [decryptBlocks_of_next h.stream_eq hu herr]
      exact ⟨_, decryptBlocks_of_ended polls [] hended _, rfl, hended, congrArg (out ++ ·) hemit⟩
    · have hpos : 0 < ps.length := List.length_pos_iff.mpr hps
      rw [List.length_cons] at hrem
      have hmore : s.blkRem ≠ 16#32 := by
        intro hlast
        rw [hlast, BitVec.toNat_ofNat] at hrem
        omega
      obtain ⟨u, hu, herr, hemit, hnext, hleft⟩ := runEvents_middleBlock polls p h hmore
      have hrem' : u.blkRem.toNat = 16 * ps.length := by
        rw [hleft, BitVec.toNat_sub_of_le (by rw [BitVec.le_def, BitVec.toNat_ofNat]; omega), BitVec.toNat_ofNat]
        omega
      obtain ⟨r, hr, herror, hended, hout⟩ := ih hps hnext hrem' (out ++ emitted u)
      rw [decryptBlocks_of_next h.stream_eq hu herr]
      refine ⟨r, hr, herror, hended, ?_⟩
      rw [hout, hemit, emitPlain_cons hps, List.append_assoc]

end

/-! ## Opening the streams -/

section
variable {ksz : BitVec 2} {key : List Byte} {s : State} (hksz : ksz ≠ 3#2) (hkey : key.length = 4 * nkOf ksz)
  (hidle : s.busy = false)
include hksz hkey hidle

/-- R105, R136, R144: after the host has written the key, its expansion does not depend on what KEY held before. -/
theorem runEvents_writeKeyIv (iv : List Byte) :
    ∃ g, runEvents (writeKey key ++ writeIv iv) s = .next { s with key := g, iv := hostWords iv } ∧
      expandedStore ksz g = expandedStore ksz (hostKey key) := by
  obtain ⟨g, hg, hwords⟩ := runEvents_writeKey hidle key
  refine ⟨g, ?_, expandedStore_congr hksz fun k hk => hwords k (by omega)⟩
  rw [runEvents_append_of_next hg]
  exact runEvents_writeIv (s := { s with key := g }) hidle iv

/-- R131, R136: after CBC_ENC_INIT the IV is emitted and is the chaining value. -/
theorem runEvents_encInit (polls : Nat) (iv : List Byte) (hstream : s.stream = .idle) :
    ∃ u, runEvents (writeKey key ++ writeIv iv ++ run (.cbcEncInit ksz) polls) s = .next u ∧ u.first = true ∧
      emitted u = (blockOfBytes iv).toList ∧
      InStream .enc (expandedStore ksz (hostKey key)) (BitVec.ofNat 4 (nrOf (nkOf ksz))) (blockOfBytes iv) u := by
  obtain ⟨g, hg, hstore⟩ := runEvents_writeKeyIv hksz hkey hidle iv
  obtain ⟨u, hu, readData, draws, rfl⟩ := runEvents_run (i := .cbcEncInit ksz) rfl polls
    (s := { s with key := g, iv := hostWords iv }) hidle (exec_cbcEncInit_idle hstream hksz)
  have hiv : hostWords iv = wordsOf (blockOfBytes iv) := by rw [← bytes16_hostWords, wordsOf_bytes16]
  exact ⟨_, (runEvents_append_of_next hg _).trans hu, rfl, emitted_block hiv rfl, rfl, rfl, hstore, rfl,
    bytes16_hostWords iv⟩

/-- R140, R144: after CBC_DEC_INIT the stream is open with the IV as the chaining value, or ended if it is empty. -/
theorem runEvents_decInit (polls : Nat) (iv : List Byte) (hstream : s.stream = .idle) {v : Word}
    (hwhole : v.toNat % 16 = 0) :
    ∃ u, runEvents (writeKey key ++ writeIv iv ++ [wr .streamLen v] ++ run (.cbcDecInit ksz) polls) s = .next u ∧
      u.err = false ∧ (v = 0#32 → Ended u) ∧
      (v ≠ 0#32 → u.blkRem = v ∧
        InStream .dec (expandedStore ksz (hostKey key)) (BitVec.ofNat 4 (nrOf (nkOf ksz))) (blockOfBytes iv) u) := by
  obtain ⟨g, hg, hstore⟩ := runEvents_writeKeyIv hksz hkey hidle iv
  have hlen : runEvents (writeKey key ++ writeIv iv ++ [wr .streamLen v]) s =
      .next { s with key := g, iv := hostWords iv, streamLen := v } := by
    rw [runEvents_append_of_next hg, runEvents,
      applyEvent_wr (s := { s with key := g, iv := hostWords iv }) hidle]
    rfl
  rw [runEvents_append_of_next hlen]
  by_cases hempty : v = 0#32
  · obtain ⟨u, hu, readData, draws, rfl⟩ := runEvents_run (i := .cbcDecInit ksz) rfl polls
      (s := { s with key := g, iv := hostWords iv, streamLen := v }) hidle
      (exec_cbcDecInit_empty hstream hksz hempty)
    exact ⟨_, hu, rfl, fun _ => ⟨rfl, rfl, rfl⟩, fun hne => absurd hempty hne⟩
  · obtain ⟨u, hu, readData, draws, rfl⟩ := runEvents_run (i := .cbcDecInit ksz) rfl polls
      (s := { s with key := g, iv := hostWords iv, streamLen := v }) hidle
      (exec_cbcDecInit_open hstream hksz hwhole hempty)
    exact ⟨_, hu, rfl, fun h => absurd h hempty, fun _ => ⟨rfl, rfl, rfl, hstore, rfl, bytes16_hostWords iv⟩⟩

end

/-! ## The procedures -/

/-- R133, R136: the plaintext blocks of a source. -/
def sourceBlocks (source : List Byte) : List Block := plainBlocks true (chunksOf source)

theorem sourceBlocks_length (source : List Byte) :
    (sourceBlocks source).length = if source.length = 0 then 0 else source.length / 16 + 1 := by
  split
  · next hempty => rw [List.eq_nil_of_length_eq_zero hempty]; rfl
  · next hne => exact plainBlocks_length rfl (by simp [hne])

theorem emitPlain_sourceBlocks (source : List Byte) : emitPlain (sourceBlocks source) = source := by
  by_cases hempty : source.length = 0
  · rw [List.eq_nil_of_length_eq_zero hempty]
    rfl
  · exact emitPlain_plainBlocks rfl (by simp [hempty])

/-- R135: the ciphertext blocks of a stream under a key and an IV. -/
def streamBlocks (ksz : BitVec 2) (key iv : List Byte) (ps : List Block) : List Block :=
  chainBlocks (cipherUnder (expandedStore ksz (hostKey key)) (BitVec.ofNat 4 (nrOf (nkOf ksz)))) (blockOfBytes iv) ps

theorem blocksBytes_streamBlocks_length (ksz : BitVec 2) (key iv : List Byte) (ps : List Block) :
    (blocksBytes (streamBlocks ksz key iv ps)).length = 16 * ps.length := by
  rw [blocksBytes_length, streamBlocks, chainBlocks_length]

section
variable {ksz : BitVec 2} {key iv : List Byte} {s : State} (hksz : ksz ≠ 3#2) (hkey : key.length = 4 * nkOf ksz)
  (hiv : iv.length = 16) (hidle : s.busy = false) (hstream : s.stream = .idle)
include hksz hkey hiv hidle hstream

/-- R136: `encryptStream` emits the IV and the ciphertext blocks of its source, and ends without an error. -/
theorem encryptStream_emits (polls : Nat) (fill source : List Byte) :
    ∃ r, encryptStream polls fill ksz key iv source s = .next r ∧ r.error = .none ∧ Ended r.state ∧
      r.output = iv ++ blocksBytes (streamBlocks ksz key iv (sourceBlocks source)) := by
  obtain ⟨u, hu, hfirst, hemit, hopen⟩ := runEvents_encInit hksz hkey hidle polls iv hstream
  obtain ⟨r, hr, herror, hended, hout⟩ := encryptChunks_emits polls fill (src := source) rfl hopen (emitted u)
  refine ⟨r, ?_, herror, hended, ?_⟩
  · rw [encryptStream, hu, andThen]
    exact hr
  · rw [hout, hemit, hfirst, toList_blockOfBytes hiv]
    rfl

/-- R144: `decryptStream` of an IV and its ciphertext blocks emits the plaintext, and ends without an error. -/
theorem decryptStream_emits (polls : Nat) {ps : List Block} (hcount : 16 * ps.length < 2 ^ 32) :
    ∃ r, decryptStream polls ksz key (iv ++ blocksBytes (streamBlocks ksz key iv ps)) s = .next r ∧ r.error = .none ∧
      Ended r.state ∧ r.output = emitPlain ps := by
  have hbody := blocksBytes_streamBlocks_length ksz key iv ps
  have htotal : (iv ++ blocksBytes (streamBlocks ksz key iv ps)).length = 16 + 16 * ps.length := by
    rw [List.length_append, hiv, hbody]
  have hlen : (BitVec.ofNat 32 (16 * ps.length)).toNat = 16 * ps.length := by
    rw [BitVec.toNat_ofNat, Nat.mod_eq_of_lt hcount]
  obtain ⟨u, hu, herr, hempty, hopen⟩ := runEvents_decInit hksz hkey hidle polls iv hstream
    (v := BitVec.ofNat 32 (16 * ps.length)) (by omega)
  rw [decryptStream, htotal, if_neg (by omega), if_neg (by omega), Nat.add_sub_cancel_left, List.take_left' hiv,
    List.drop_left' hiv, hu, andThen, if_neg (by simp [herr]), chunksOf_blocksBytes]
  by_cases hps : ps = []
  · subst hps
    have hended := hempty rfl
    exact ⟨_, decryptBlocks_of_ended polls [] hended _, rfl, hended, rfl⟩
  · have hpos : 0 < ps.length := List.length_pos_iff.mpr hps
    have hne : BitVec.ofNat 32 (16 * ps.length) ≠ 0#32 := by
      intro hzero
      rw [hzero, BitVec.toNat_ofNat] at hlen
      omega
    obtain ⟨hrem, hin⟩ := hopen hne
    exact decryptBlocks_emits polls hps hin (by rw [hrem, hlen]) []

end

/-! ## The obligation -/

/-- Settles O44: the two loops are chaining and cutting into blocks, and decryption undoes both. -/
theorem streamRoundTrip : Obligations.StreamRoundTrip := by
  unfold Obligations.StreamRoundTrip
  intro polls polls' fill ksz key iv source s s' hksz hkey hiv hsource hidle hstream hidle' hstream'
  have hblocks := sourceBlocks_length source
  have hcount : 16 * (sourceBlocks source).length < 2 ^ 32 := by
    rw [hblocks]
    split <;> omega
  obtain ⟨r, hr, herror, hended, hout⟩ := encryptStream_emits hksz hkey hiv hidle hstream polls fill source
  obtain ⟨r', hr', herror', hended', hout'⟩ := decryptStream_emits hksz hkey hiv hidle' hstream' polls' hcount
  refine ⟨r, hr, herror, ?_, ?_, hended.key_eq, hended.keyValid_eq, r', ?_, herror', ?_, hended'.key_eq,
    hended'.keyValid_eq⟩
  · rw [hout, List.take_left' hiv]
  · rw [hout, List.length_append, hiv, blocksBytes_streamBlocks_length, hblocks]
    split <;> rfl
  · rw [hout, hr']
  · rw [hout', emitPlain_sourceBlocks]

end Sys2Proof.Machine
end
